-- ==== Sys2Proof/Word.lean ====
section
/-!
DEFINITION. The word types of the BBI2C block. A command word and a host register are 16 bits (R70, R51), a frame value
is 8 bits (R76). A single bit is a `Bool`: `true` is 1 and HIGH, `false` is 0 and LOW (R11).
-/

namespace Sys2Proof

/-- A 16-bit command word or host register; bit 0 is the least significant (R11, R60). -/
abbrev Word := BitVec 16

/-- An 8-bit frame value (R76). -/
abbrev Byte := BitVec 8

end Sys2Proof
end

