-- ==== Sys2Proof/Syntax.lean ====
section
/-!
DEFINITION. The commands of BBI2C command set version 1 (R1, R2, R72), one constructor per row of spec/opcode_table.json,
with the operands R71 and R82 give them.
-/

namespace Sys2Proof

/-- A GPIO line: SCL the clock, SDA the data (R25); field L, 0 = SCL, 1 = SDA (R82). -/
inductive Line where
  | scl
  | sda
  deriving DecidableEq, Repr, Inhabited

/-- A line's direction, IN or OUT (R25); field X of LDIR, 0 = IN, 1 = OUT (R82). -/
inductive Dir where
  | input
  | output
  deriving DecidableEq, Repr, Inhabited

/-- The two settings of the pin multiplexer (R24); field X of LMUX, 0 = I2C, 1 = GPIO (R82). -/
inductive Mux where
  | i2c
  | gpio
  deriving DecidableEq, Repr, Inhabited

/-- A command with its operands (R73). -/
inductive Instr where
  /-- START: generate the start condition (R130). -/
  | start
  /-- STOP: generate the stop condition (R131). -/
  | stop
  /-- SEND: a frame of `n` bits of `v`; `a` the expected ack level, `w` whether to wait for the ack (R133). -/
  | send (v : Byte) (n : Nat) (a w : Bool)
  /-- RACK: the ack cycle alone, expecting level `a` (R135). -/
  | rack (a : Bool)
  /-- STORE: the store sequence for the 7-bit device address `da` (R172). -/
  | store (da : BitVec 7)
  /-- LDIR: set a line's direction (R101). -/
  | ldir (l : Line) (d : Dir)
  /-- LWR: set a line's output latch (R102). -/
  | lwr (l : Line) (v : Bool)
  /-- LRD: sample a line (R103). -/
  | lrd (l : Line)
  /-- LMUX: hand the pins to the I2C peripheral or to GPIO (R104). -/
  | lmux (m : Mux)
  /-- WAITU: wait at least `c` microseconds (R105). -/
  | waitu (c : BitVec 12)
  /-- WAITM: wait at least `c` milliseconds (R106). -/
  | waitm (c : BitVec 12)
  deriving DecidableEq, Repr

end Sys2Proof
end

