-- ==== Sys2Proof/WellFormed.lean ====
section
/-!
DEFINITION. Which commands have an encoding. Every operand's range (R91) is carried by its type, except SEND's bit
count: it is 1 to 8, and a count of 0 or above 8 has no encoding (R76, D10).
-/

namespace Sys2Proof

/-- The command has an encoding (R76, R91). -/
def Instr.wf : Instr → Bool
  | .start => true
  | .stop => true
  | .send _ n _ _ => decide (1 ≤ n) && decide (n ≤ 8)
  | .rack _ => true
  | .store _ => true
  | .ldir _ _ => true
  | .lwr _ _ => true
  | .lrd _ => true
  | .lmux _ => true
  | .waitu _ => true
  | .waitm _ => true

end Sys2Proof
end

