-- ==== Sys2Proof/Decode.lean ====
section
/-!
DEFINITION. The decoder of R73, total on all 65536 words, rejecting an ILLEGAL word by the reason R83 gives, and the
encoder of R71 and R74 to R80. The opcode table (spec/opcode_table.json) stands beside them as data.
-/

namespace Sys2Proof

/-- Field L (R82): 0 = SCL, 1 = SDA. -/
def Line.ofBit : Bool → Line
  | false => .scl
  | true => .sda

/-- The value of field L for a line (R82). -/
def Line.bit : Line → Bool
  | .scl => false
  | .sda => true

/-- Field X of LDIR (R82): 0 = IN, 1 = OUT. -/
def Dir.ofBit : Bool → Dir
  | false => .input
  | true => .output

/-- The value of field X for a direction (R82). -/
def Dir.bit : Dir → Bool
  | .input => false
  | .output => true

/-- Field X of LMUX (R82): 0 = I2C, 1 = GPIO. -/
def Mux.ofBit : Bool → Mux
  | false => .i2c
  | true => .gpio

/-- The value of field X for a multiplexer setting (R82). -/
def Mux.bit : Mux → Bool
  | .i2c => false
  | .gpio => true

/-- Why a word is ILLEGAL, case by case as R83 lists them. Each raises ILLEGAL_CMD (R202). -/
inductive Illegal where
  /-- OP = 000. -/
  | opReserved
  /-- START with w[12:0] not 0. -/
  | startReserved
  /-- STOP with w[12:0] not 0. -/
  | stopReserved
  /-- RACK with w[12] = 1 or w[10:0] not 0. -/
  | rackReserved
  /-- STORE with w[12:7] not 0. -/
  | storeReserved
  /-- The LINE group with w[8:0] not 0. -/
  | lineReserved
  /-- LRD with X = 1. -/
  | lrdReserved
  /-- LMUX with L = 1. -/
  | lmuxReserved
  deriving DecidableEq, Repr

/-- Decode a LINE group word, OP = 110 (R79, R73). -/
def decodeLine (w : Word) : Except Illegal Instr :=
  if w.extractLsb' 0 9 ≠ 0#9 then .error .lineReserved
  else
    match w.getLsbD 12, w.getLsbD 11 with
    | false, false => .ok (.ldir (Line.ofBit (w.getLsbD 10)) (Dir.ofBit (w.getLsbD 9)))
    | false, true => .ok (.lwr (Line.ofBit (w.getLsbD 10)) (w.getLsbD 9))
    | true, false =>
      if w.getLsbD 9 then .error .lrdReserved else .ok (.lrd (Line.ofBit (w.getLsbD 10)))
    | true, true =>
      if w.getLsbD 10 then .error .lmuxReserved else .ok (.lmux (Mux.ofBit (w.getLsbD 9)))

/-- `Decode(w)` of R73: the command a word encodes, or why it is ILLEGAL (R83). -/
def decode (w : Word) : Except Illegal Instr :=
  match w.getLsbD 15, w.getLsbD 14, w.getLsbD 13 with
  | false, false, false => .error .opReserved
  | false, false, true => if w.extractLsb' 0 13 = 0#13 then .ok .start else .error .startReserved
  | false, true, false => if w.extractLsb' 0 13 = 0#13 then .ok .stop else .error .stopReserved
  | false, true, true =>
    .ok (.send (w.extractLsb' 0 8) ((w.extractLsb' 8 3).toNat + 1) (w.getLsbD 11) (w.getLsbD 12))
  | true, false, false =>
    if w.getLsbD 12 = false ∧ w.extractLsb' 0 11 = 0#11 then .ok (.rack (w.getLsbD 11))
    else .error .rackReserved
  | true, false, true =>
    if w.extractLsb' 7 6 = 0#6 then .ok (.store (w.extractLsb' 0 7)) else .error .storeReserved
  | true, true, false => decodeLine w
  | true, true, true =>
    if w.getLsbD 12 then .ok (.waitm (w.extractLsb' 0 12)) else .ok (.waitu (w.extractLsb' 0 12))

/-- The command word of a command, field by field as R71 lays it out (R74 to R80). NM1 is the bit count minus one. -/
def encode : Instr → Word
  | .start => 0b001#3 ++ 0#13
  | .stop => 0b010#3 ++ 0#13
  | .send v n a w => 0b011#3 ++ BitVec.ofBool w ++ BitVec.ofBool a ++ BitVec.ofNat 3 (n - 1) ++ v
  | .rack a => 0b100#3 ++ 0#1 ++ BitVec.ofBool a ++ 0#11
  | .store da => 0b101#3 ++ 0#6 ++ da
  | .ldir l d => 0b110#3 ++ 0b00#2 ++ BitVec.ofBool l.bit ++ BitVec.ofBool d.bit ++ 0#9
  | .lwr l v => 0b110#3 ++ 0b01#2 ++ BitVec.ofBool l.bit ++ BitVec.ofBool v ++ 0#9
  | .lrd l => 0b110#3 ++ 0b10#2 ++ BitVec.ofBool l.bit ++ 0#1 ++ 0#9
  | .lmux m => 0b110#3 ++ 0b11#2 ++ 0#1 ++ BitVec.ofBool m.bit ++ 0#9
  | .waitu c => 0b111#3 ++ 0#1 ++ c
  | .waitm c => 0b111#3 ++ 1#1 ++ c

/-- One row of spec/opcode_table.json: a word is the row's when `w &&& mask = pattern` (R73). -/
structure OpcodeRow where
  mnemonic : String
  pattern  : Word
  mask     : Word
  deriving DecidableEq, Repr

/-- spec/opcode_table.json, row by row. -/
def opcodeTable : List OpcodeRow :=
  [⟨"START", 0x2000#16, 0xFFFF#16⟩, ⟨"STOP", 0x4000#16, 0xFFFF#16⟩, ⟨"SEND", 0x6000#16, 0xE000#16⟩,
   ⟨"RACK", 0x8000#16, 0xF7FF#16⟩, ⟨"STORE", 0xA000#16, 0xFF80#16⟩, ⟨"LDIR", 0xC000#16, 0xF9FF#16⟩,
   ⟨"LWR", 0xC800#16, 0xF9FF#16⟩, ⟨"LRD", 0xD000#16, 0xFBFF#16⟩, ⟨"LMUX", 0xD800#16, 0xFDFF#16⟩,
   ⟨"WAITU", 0xE000#16, 0xF000#16⟩, ⟨"WAITM", 0xF000#16, 0xF000#16⟩]

/-- The mnemonic of a command, as the opcode table spells it. -/
def Instr.mnemonic : Instr → String
  | .start => "START"
  | .stop => "STOP"
  | .send _ _ _ _ => "SEND"
  | .rack _ => "RACK"
  | .store _ => "STORE"
  | .ldir _ _ => "LDIR"
  | .lwr _ _ => "LWR"
  | .lrd _ => "LRD"
  | .lmux _ => "LMUX"
  | .waitu _ => "WAITU"
  | .waitm _ => "WAITM"

/-- The mnemonics of the table's rows that match a word (R73: at most one). -/
def tableRows (w : Word) : List String :=
  (opcodeTable.filter fun r => w &&& r.mask == r.pattern).map OpcodeRow.mnemonic

/-- The instruction this decoder reads from a word whose bits are `w`, `nbits` of them given; the rest are zero. -/
def decodeTableWord (nbits w : Nat) : Option Instr :=
  match decode (BitVec.ofNat 16 (w % 2 ^ nbits)) with
  | .ok i => some i
  | .error _ => none

end Sys2Proof
end

