-- ==== Sys2Proof/Config.lean ====
section
/-!
DEFINITION. What is fixed for the hardware (R9, one record that no command writes: C6), the parameters the spec leaves
as arguments of the model (R10), and the free values (R8): constants with no body, of which nothing can be proved.
-/

namespace Sys2Proof.Config

/-- The fixed constants of R9; times in microseconds unless the name says otherwise. -/
structure Constants where
  /-- T_CYCLE -/
  tCycle : Nat
  /-- T_PRE -/
  tPre : Nat
  /-- T_POST -/
  tPost : Nat
  /-- ACK_POLL_MAX -/
  ackPollMax : Nat
  /-- ACK_POLL_US -/
  ackPollUs : Nat
  /-- STORE_DELAY_MS -/
  storeDelayMs : Nat
  /-- HEAD -/
  head : Byte
  /-- HEAD_BITS -/
  headBits : Nat
  /-- ADDR -/
  addr : Byte
  /-- CMD1 -/
  cmd1 : Byte
  /-- CMD2 -/
  cmd2 : Byte
  /-- STORE_REPEAT -/
  storeRepeat : Nat
  /-- DEFAULT_BITS -/
  defaultBits : Nat
  /-- DEFAULT_ACK -/
  defaultAck : Bool
  deriving DecidableEq, Repr

/-- The values of R9. UNVERIFIED, unsafe: the source's literals are unaudited (N12; log 5). -/
def hw : Constants :=
  { tCycle := 5, tPre := 2, tPost := 3, ackPollMax := 250, ackPollUs := 1, storeDelayMs := 10,
    head := 0x02#8, headBits := 3, addr := 0x10#8, cmd1 := 0x03#8, cmd2 := 0x00#8, storeRepeat := 8,
    defaultBits := 8, defaultAck := false }

@[simp] theorem hw_tCycle : hw.tCycle = 5 := rfl
@[simp] theorem hw_tPre : hw.tPre = 2 := rfl
@[simp] theorem hw_tPost : hw.tPost = 3 := rfl
@[simp] theorem hw_ackPollMax : hw.ackPollMax = 250 := rfl
@[simp] theorem hw_ackPollUs : hw.ackPollUs = 1 := rfl
@[simp] theorem hw_storeDelayMs : hw.storeDelayMs = 10 := rfl
@[simp] theorem hw_head : hw.head = 0x02#8 := rfl
@[simp] theorem hw_headBits : hw.headBits = 3 := rfl
@[simp] theorem hw_addr : hw.addr = 0x10#8 := rfl
@[simp] theorem hw_cmd1 : hw.cmd1 = 0x03#8 := rfl
@[simp] theorem hw_cmd2 : hw.cmd2 = 0x00#8 := rfl
@[simp] theorem hw_storeRepeat : hw.storeRepeat = 8 := rfl
@[simp] theorem hw_defaultBits : hw.defaultBits = 8 := rfl
@[simp] theorem hw_defaultAck : hw.defaultAck = false := rfl

/-- FRAME_BIT_SELECT (R10, R132, D9). -/
inductive FrameBitSelect where
  | top
  | low
  deriving DecidableEq, Repr

/-- LATCH_ON_DIR_OUT (R10, R28, D6). -/
inductive LatchOnDirOut where
  | retain
  | draw
  deriving DecidableEq, Repr

/-- The model's finite parameters (R10). The other two of R10, ENV and DUR, are the free values below. -/
structure Params where
  frameBits  : FrameBitSelect
  latchOnOut : LatchOnDirOut
  muxCanFail : Bool
  deriving DecidableEq, Repr

/-- The defaults of R10, the values the spec takes for the hardware. -/
def Params.default : Params :=
  { frameBits := .top, latchOnOut := .retain, muxCanFail := true }

/-- ENV (R10, R27): the environment's answer to read number `n` of line `l` at time `t`. A free value (log 3). -/
opaque env : Line → Nat → Nat → Bool

/-- The outcome of a multiplexer switch when MUX_CAN_FAIL (R30). A free value (log 3). -/
opaque switchOk : Nat → Bool

/-- DUR (R10, R33, R34): the time a primitive takes beyond its lower bound. A free value (log 3). -/
opaque slack : Nat → Nat

/-- A value the spec leaves undefined: pin state after a failed switch (R30), a drawn latch (R28), a register field
read while busy (R57). A free value (log 3). -/
opaque undefinedValue : Nat → Word

end Sys2Proof.Config
end

