-- ==== Sys2Proof/Machine/State.lean ====
section
/-!
DEFINITION. The state of the BBI2C block (R20), the host's agenda and the environment's answers, all as plain data, and
the block right after reset (R40).
-/

namespace Sys2Proof.Machine

/-- The state of one GPIO line (R25): its direction and its output latch (`true` is HIGH). -/
structure LineState where
  dir : Dir
  lat : Bool
  deriving DecidableEq, Repr

/-- The codes ERR holds (R36, R201). -/
inductive ErrCode where
  /-- 0: no fault since reset. -/
  | none
  /-- 1: the word written to CMD is ILLEGAL (R202). -/
  | illegalCmd
  /-- 2: a line or signal command outside GPIO mode, or a signal command with a line IN (R203). -/
  | modeErr
  /-- 3: a multiplexer switch failed (R204). -/
  | pinReconf
  deriving DecidableEq, Repr

/-- The events the primitives append to the trace (R35). -/
inductive Event where
  /-- `W(l, v)` (R26). -/
  | write (l : Line) (v : Bool)
  /-- `R(l, r)` (R27). -/
  | read (l : Line) (r : Bool)
  /-- `D(l, d)` (R28). -/
  | dir (l : Line) (d : Dir)
  /-- `M(m, ok)` (R30). -/
  | mux (m : Mux) (ok : Bool)
  /-- `T(d)` (R33). -/
  | delay (d : Nat)
  deriving DecidableEq, Repr

/-- A statement of a command's pseudocode (R12). The sequencer's position in a command (R22) is the list of statements
still to run. -/
inductive Stmt where
  /-- `RequireGpio()` (R100). -/
  | requireGpio
  /-- `RequireGpioOut()` (R100). -/
  | requireGpioOut
  /-- `LineWrite(l, v)` (R26). -/
  | lineWrite (l : Line) (v : Bool)
  /-- `LineDir(l, d)` (R28). -/
  | lineDir (l : Line) (d : Dir)
  /-- `Delay(d)` (R33). -/
  | delay (d : Nat)
  /-- `RES <- LineRead(l); TO <- 0` (R103). -/
  | readResult (l : Line)
  /-- `MuxSet(m)`, with what its caller does when it fails (R104, R172). -/
  | muxSet (m : Mux)
  /-- STORE's restoration attempt after a failed step 1: `MuxSet(I2C)`, pin state drawn, raise PIN_RECONF (R172, R181). -/
  | restore
  /-- Enter iteration `i` of SEND's bit loop (R133). -/
  | bitIndex (i : Nat)
  /-- `LineWrite(SDA, FrameBit(v, n, i))`, `i` the bit index (R132, R133). -/
  | frameBit (v : Byte) (n : Nat)
  /-- `k <- 0` of the ack cycle (R134). -/
  | pollReset
  /-- The ack cycle's `repeat ... until` loop, from its next iteration on (R134). -/
  | poll (a : Bool)
  /-- `RES <- r; TO <- to` after the ack cycle (R133, R135). -/
  | ackResult
  /-- `RES <- r; TO <- to` with given values (R133, R172). -/
  | result (r timedOut : Bool)
  /-- Enter step `k` of STORE (R172). -/
  | storeStep (k : Nat)
  deriving DecidableEq, Repr

/-- The sequencer's internal position and its hidden state (R22, R38). -/
structure Seq where
  /-- The statements of the command still to run. -/
  code    : List Stmt
  /-- The bit index of SEND's bit loop. -/
  bit     : Nat
  /-- The poll count k of the ack cycle. -/
  poll    : Nat
  /-- The level r the ack cycle last read. -/
  level   : Bool
  /-- The matched flag of the ack cycle: the last read equalled the expected level. -/
  matched : Bool
  /-- The step of STORE, 1 to 8; 0 when no STORE is in execution. -/
  step    : Nat
  deriving DecidableEq, Repr

/-- The sequencer with no command in execution: the hidden state is discarded (R38, R40; its form is log 8). -/
def Seq.idle : Seq :=
  { code := [], bit := 0, poll := 0, level := false, matched := false, step := 0 }

/-- The environment's answers to come, oldest first, and how many were taken. Where a list is empty, the answer is the
opaque constant of Config (log 3). Not state of the block: reset leaves it (log 7). -/
structure Env where
  /-- ENV's answers to the next reads of a line whose direction is IN (R27). -/
  answers  : List Bool
  /-- The outcomes of the next multiplexer switches, while MUX_CAN_FAIL (R30). -/
  switches : List Bool
  /-- DUR: the time the next primitives take beyond their lower bounds (R33, R34). -/
  slack    : List Nat
  /-- The next undefined values (R28, R30, R57). -/
  values   : List Word
  /-- The number of reads so far, n of R27. -/
  reads    : Nat
  /-- The number of other draws so far. -/
  draws    : Nat
  deriving DecidableEq, Repr

/-- What the host can do at the block's register window and reset input (R50, R51, R240). -/
inductive HostOp where
  /-- Write word `w` to register `off`; at CMD, wait until the command has ended (R55, R250). -/
  | write (off : Nat) (w : Word)
  /-- Write word `w` to register `off`; at CMD, go on as soon as the word is accepted (R55, R56). -/
  | post (off : Nat) (w : Word)
  /-- Read register `off` (R57, R59). -/
  | read (off : Nat)
  /-- A partial-width or unaligned access (R58). -/
  | partialAccess
  /-- Assert reset (R240). -/
  | reset
  deriving DecidableEq, Repr

/-- One event of the host's agenda: it comes after the sequencer has run `after` more statements of the command in
progress, or at once if the block is idle by then (log 2). -/
structure HostEvent where
  op    : HostOp
  after : Nat
  deriving DecidableEq, Repr

/-- The state of the machine. The first twelve fields are the block's (R20). -/
structure State where
  /-- MUX (R24). -/
  mux      : Mux
  /-- line[SCL] (R25). -/
  scl      : LineState
  /-- line[SDA] (R25). -/
  sda      : LineState
  /-- RES (R32). -/
  res      : Bool
  /-- TO (R32). -/
  timedOut : Bool
  /-- BUSY (R31). -/
  busy     : Bool
  /-- FAULT (R36). -/
  fault    : Bool
  /-- ERR (R36). -/
  err      : ErrCode
  /-- LASTCMD (R37). -/
  lastCmd  : Word
  /-- The sequencer's position and hidden state (R22, R38). -/
  seq      : Seq
  /-- Time in microseconds since reset (R34). -/
  t        : Nat
  /-- The trace: each event with its start time, oldest first (R35). -/
  trace    : List (Nat × Event)
  /-- The model's parameters (R10); no step writes them (log 4). -/
  params   : Config.Params
  /-- The environment's answers (R8; log 3). -/
  env      : Env
  /-- What the host does next, oldest first (R7; log 2). -/
  host     : List HostEvent
  /-- What the host's last read returned (R57; log 12). -/
  readData : Option Word
  deriving DecidableEq, Repr

/-- Why the machine stops with a fault: never. Every fault of the spec is an entry the block takes, a next state (R205);
safe, since no run is lost (log 15). -/
inductive Fault where
  deriving DecidableEq, Repr

/-- Why a step has no meaning. -/
inductive Refusal where
  /-- Raised by `exec`'s arm of an instruction that has no meaning yet; no arm raises it now. Safe: nothing is claimed. -/
  | notModelled (mnemonic : String)
  /-- Raised by the port for a partial-width or unaligned host access, which has no meaning (R58, U8). Safe. -/
  | partialAccess
  deriving DecidableEq, Repr

/-- A line's latch driven HIGH with direction OUT: the reset value of both lines (R40). -/
def LineState.outHigh : LineState :=
  { dir := .output, lat := true }

/-- No answers listed, none taken: DESIGN CHOICE for the model's own fields (log 6). -/
def Env.unlisted : Env :=
  { answers := [], switches := [], slack := [], values := [], reads := 0, draws := 0 }

/-- The machine right after reset: the block's fields at the values of R40, the model's own as log 4 and log 6 say. -/
def State.reset : State :=
  { mux := .i2c, scl := .outHigh, sda := .outHigh, res := false, timedOut := false, busy := false, fault := false,
    err := .none, lastCmd := 0x0000#16, seq := Seq.idle, t := 0, trace := [],
    params := Config.Params.default, env := Env.unlisted, host := [], readData := none }

end Sys2Proof.Machine
end

