-- ==== Sys2Proof/Machine/Ops.lean ====
section
/-!
DEFINITION. The named operations of the block: the accessors of a line, the environment's draws (R8), the five primitives
(R13), fault entry (R205), the mode checks (R100), the beginning and end of a command (R31), and reset (R240).
-/

namespace Sys2Proof.Machine

/-! ## Lines -/

/-- `line[l]` (R12). -/
def State.line (s : State) : Line → LineState
  | .scl => s.scl
  | .sda => s.sda

/-- `line[l] <- x` (R12). -/
def State.setLine (s : State) (l : Line) (x : LineState) : State :=
  match l with
  | .scl => { s with scl := x }
  | .sda => { s with sda := x }

/-- `line[l].lat <- v` (R26). -/
def State.setLat (s : State) (l : Line) (v : Bool) : State :=
  s.setLine l { s.line l with lat := v }

/-- `line[l].dir <- d` (R28). -/
def State.setDir (s : State) (l : Line) (d : Dir) : State :=
  s.setLine l { s.line l with dir := d }

/-- What the block does to a pin (R29). -/
inductive Pin where
  /-- Driven by the block to a level. -/
  | driven (v : Bool)
  /-- Not driven by the block: the level is the environment's. -/
  | released
  /-- Owned by the I2C peripheral. -/
  | peripheral
  deriving DecidableEq, Repr

/-- The pin table of R29. -/
def State.pin (s : State) (l : Line) : Pin :=
  match s.mux, (s.line l).dir with
  | .gpio, .output => .driven (s.line l).lat
  | .gpio, .input => .released
  | .i2c, _ => .peripheral

/-! ## Draws (log 3, log 9) -/

/-- ENV's answer to a read of line `l` with direction IN (R27). -/
def State.nextAnswer (s : State) (l : Line) : Bool :=
  s.env.answers.headD (Config.env l s.t s.env.reads)

/-- One more read is made (R27: n numbers the reads). -/
def State.countRead (s : State) : State :=
  { s with env := { s.env with reads := s.env.reads + 1 } }

/-- The environment's answer is used up. -/
def State.takeAnswer (s : State) : State :=
  { s with env := { s.env with answers := s.env.answers.tail } }

/-- The outcome of the next multiplexer switch (R30): a draw while MUX_CAN_FAIL, else true. -/
def State.nextSwitch (s : State) : Bool :=
  if s.params.muxCanFail then s.env.switches.headD (Config.switchOk s.env.draws) else true

/-- The outcome is used up; none is drawn when MUX_CAN_FAIL = false. -/
def State.takeSwitch (s : State) : State :=
  if s.params.muxCanFail then
    { s with env := { s.env with switches := s.env.switches.tail, draws := s.env.draws + 1 } }
  else s

/-- The time the next primitive takes beyond its lower bound (R33, R34). -/
def State.nextSlack (s : State) : Nat :=
  s.env.slack.headD (Config.slack s.env.draws)

/-- That time is used up. -/
def State.takeSlack (s : State) : State :=
  { s with env := { s.env with slack := s.env.slack.tail, draws := s.env.draws + 1 } }

/-- The next undefined value. -/
def State.nextValue (s : State) : Word :=
  s.env.values.headD (Config.undefinedValue s.env.draws)

/-- That value is used up. -/
def State.takeValue (s : State) : State :=
  { s with env := { s.env with values := s.env.values.tail, draws := s.env.draws + 1 } }

/-! ## Time and trace -/

/-- The least time the primitive that appends this event takes: d for `T(d)` (R33), 0 for the others (R34). -/
def Event.minTime : Event → Nat
  | .delay d => d
  | .write _ _ => 0
  | .read _ _ => 0
  | .dir _ _ => 0
  | .mux _ _ => 0

/-- The end of every primitive: append the event at time t, then advance time by at least its lower bound (R35, R34). -/
def State.emit (s : State) (e : Event) : State :=
  { s.takeSlack with trace := s.trace ++ [(s.t, e)], t := s.t + e.minTime + s.nextSlack }

/-! ## The five primitives (R13) -/

/-- `LineWrite(l, v)` (R26). -/
def State.lineWrite (s : State) (l : Line) (v : Bool) : State :=
  (s.setLat l v).emit (.write l v)

/-- The level `LineRead(l)` returns (R27): the latch of an OUT line, the environment's answer for an IN line. -/
def State.readLevel (s : State) (l : Line) : Bool :=
  match (s.line l).dir with
  | .output => (s.line l).lat
  | .input => s.nextAnswer l

/-- The state after `LineRead(l)` (R27). -/
def State.lineRead (s : State) (l : Line) : State :=
  match (s.line l).dir with
  | .output => (s.countRead).emit (.read l (s.readLevel l))
  | .input => (s.takeAnswer.countRead).emit (.read l (s.readLevel l))

/-- The latch rule on a change of direction to OUT: kept under RETAIN, drawn under DRAW (R28). -/
def State.latchOnOut (s : State) (l : Line) : State :=
  match s.params.latchOnOut with
  | .retain => s
  | .draw => (s.setLat l (s.nextValue.getLsbD 0)).takeValue

/-- Direction `d` for line `l`, with the latch rule when `d` = OUT (R28, R30). -/
def State.turn (s : State) (l : Line) (d : Dir) : State :=
  match d with
  | .input => s.setDir l .input
  | .output => (s.setDir l .output).latchOnOut l

/-- `LineDir(l, d)` (R28). -/
def State.lineDir (s : State) (l : Line) (d : Dir) : State :=
  (s.turn l d).emit (.dir l d)

/-- `Delay(d)` (R33). -/
def State.delay (s : State) (d : Nat) : State :=
  s.emit (.delay d)

/-- MUX and both line states become draws: the pin state is undefined (R30). Five bits of one undefined value. -/
def State.drawPins (s : State) : State :=
  { s.takeValue with
    mux := if s.nextValue.getLsbD 0 then .gpio else .i2c,
    scl := { dir := if s.nextValue.getLsbD 1 then .output else .input, lat := s.nextValue.getLsbD 2 },
    sda := { dir := if s.nextValue.getLsbD 3 then .output else .input, lat := s.nextValue.getLsbD 4 } }

/-- A successful switch (R30): to GPIO both lines become OUT, SCL first; to I2C the lines are unchanged. -/
def State.switchTo (s : State) (m : Mux) : State :=
  match m with
  | .gpio => ({ s with mux := .gpio }.turn .scl .output).turn .sda .output
  | .i2c => { s with mux := .i2c }

/-- The state after `MuxSet(m)` (R30); the result ok is `s.nextSwitch`. -/
def State.muxSet (s : State) (m : Mux) : State :=
  if s.nextSwitch then (s.takeSwitch.switchTo m).emit (.mux m true)
  else (s.takeSwitch.drawPins).emit (.mux m false)

/-! ## Faults and checks -/

/-- `raise Fault(code)` (R205): the first fault's code is kept, the rest of the command is abandoned, BUSY becomes 0.
It takes no time and saves no other state. -/
def State.raise (s : State) (c : ErrCode) : State :=
  { s with err := if s.fault then s.err else c, fault := true, busy := false, seq := Seq.idle }

/-- `RequireGpio()` (R100). -/
def State.requireGpio (s : State) : State :=
  match s.mux with
  | .gpio => s
  | .i2c => s.raise .modeErr

/-- MUX = GPIO and both lines OUT: what `RequireGpioOut` asks (R100). -/
def State.gpioOut (s : State) : Prop :=
  s.mux = .gpio ∧ s.scl.dir = .output ∧ s.sda.dir = .output

/-- `RequireGpioOut()` (R100). -/
def State.requireGpioOut (s : State) : State :=
  match s.mux, s.scl.dir, s.sda.dir with
  | .gpio, .output, .output => s
  | .i2c, _, _ => s.raise .modeErr
  | .gpio, .input, _ => s.raise .modeErr
  | .gpio, .output, .input => s.raise .modeErr

/-! ## The life of a command -/

/-- The sequencer takes up a command: BUSY is 1 and the hidden state is fresh (R31, R38). -/
def State.begin (s : State) (code : List Stmt) : State :=
  { s with busy := true, seq := { Seq.idle with code := code } }

/-- A command ends: BUSY returns to 0 and the hidden state is discarded (R31, R38, R55). -/
def State.finish (s : State) : State :=
  { s with busy := false, seq := Seq.idle }

/-- Reset (R240, R241): every field of the block at its value of R40, a new trace; the host, the environment and the
parameters are not the block's and stay (log 7). -/
def State.resetBlock (s : State) : State :=
  { State.reset with params := s.params, env := s.env, host := s.host, readData := s.readData }

end Sys2Proof.Machine
end

