-- ==== Sys2Proof/Machine/Flags.lean ====
section
/-!
DEFINITION. The result bits RES and TO (R32, R39) and the status registers the host reads (R52, R54, R57, R59).
-/

namespace Sys2Proof.Machine

/-- `RES <- r; TO <- to` (R39). -/
def State.setResult (s : State) (r timedOut : Bool) : State :=
  { s with res := r, timedOut := timedOut }

/-- The result of the ack cycle: RES is the level last read, TO is 1 when it is not the expected one (R134, R39). -/
def State.setAckResult (s : State) : State :=
  s.setResult s.seq.level (!s.seq.matched)

/-- The 2-bit code ERR holds (R36, R201). -/
def ErrCode.code : ErrCode → BitVec 2
  | .none => 0
  | .illegalCmd => 1
  | .modeErr => 2
  | .pinReconf => 3

/-- The MUX field of STATUS: 1 when MUX = GPIO (R52). -/
def Mux.statusBit : Mux → Bool
  | .i2c => false
  | .gpio => true

/-- The OUT bits of LINES: 1 when the direction is OUT (R54). -/
def Dir.outBit : Dir → Bool
  | .input => false
  | .output => true

/-- STATUS with given RES, TO and MUX fields; BUSY, FAULT and ERR as they stand (R52). -/
def State.statusWith (s : State) (res timedOut mux : Bool) : Word :=
  0#9 ++ BitVec.ofBool mux ++ s.err.code ++ BitVec.ofBool s.fault ++ BitVec.ofBool s.busy
    ++ BitVec.ofBool timedOut ++ BitVec.ofBool res

/-- STATUS while BUSY = 0 (R52). -/
def State.statusWord (s : State) : Word :=
  s.statusWith s.res s.timedOut (Mux.statusBit s.mux)

/-- LINES while BUSY = 0 (R54). -/
def State.linesWord (s : State) : Word :=
  0#12 ++ BitVec.ofBool (Dir.outBit s.sda.dir) ++ BitVec.ofBool s.sda.lat
    ++ BitVec.ofBool (Dir.outBit s.scl.dir) ++ BitVec.ofBool s.scl.lat

/-- What a host read of register `off` returns (R51, R57, R59). While BUSY = 1 the fields RES, TO and MUX of STATUS and
all of LINES are any value; LASTCMD stands. CMD and every offset above 3 read 0x0000. -/
def State.readRegister (s : State) (off : Nat) : Word :=
  match off with
  | 1 =>
    if s.busy then
      s.statusWith (s.nextValue.getLsbD 0) (s.nextValue.getLsbD 1) (s.nextValue.getLsbD 2)
    else s.statusWord
  | 2 => if s.busy then s.nextValue else s.linesWord
  | 3 => s.lastCmd
  | _ => 0x0000#16

end Sys2Proof.Machine
end

