-- ==== Sys2Proof/Machine/Operands.lean ====
section
/-!
DEFINITION. The operand forms: what a field's value stands for when a command runs (R81, R82, R132, R176). The one-bit
fields and the bit count are read where the word is decoded (Sys2Proof/Decode.lean).
-/

namespace Sys2Proof.Machine

/-- `FrameBit(V, N, i)` (R132): under TOP `V[7 - i]`, under LOW `V[N - 1 - i]`. -/
def frameBit (sel : Config.FrameBitSelect) (v : Byte) (n i : Nat) : Bool :=
  match sel with
  | .top => v.getLsbD (7 - i)
  | .low => v.getLsbD (n - 1 - i)

/-- The address byte of STORE's step 4, `(zext_8(DA) << 1) & 0xFF` (R176, R81). -/
def addressByte (da : BitVec 7) : Byte :=
  (da.zeroExtend 8) <<< 1

/-- WAITU's count in microseconds (R81, R105). -/
def microsOfU (c : BitVec 12) : Nat :=
  c.toNat

/-- WAITM's count in microseconds: C x 1000 (R81, R106). -/
def microsOfM (c : BitVec 12) : Nat :=
  1000 * c.toNat

end Sys2Proof.Machine
end

