-- ==== Sys2Proof/Machine/Sequencer.lean ====
section
/-!
DEFINITION. How the sequencer runs the statements of a command (R12, R14, R61). `doStmt` and `run` run whole statements
and whole commands; `tick` runs one statement of a command in progress, one iteration of the poll loop at a time, so that
a host event can come in between (R56, R57, R241). Both are written over the same primitives.
-/

namespace Sys2Proof.Machine

/-! ## The hidden state (R38) -/

def State.setBit (s : State) (i : Nat) : State :=
  { s with seq := { s.seq with bit := i } }

def State.setPoll (s : State) (k : Nat) : State :=
  { s with seq := { s.seq with poll := k } }

def State.setMatch (s : State) (r matched : Bool) : State :=
  { s with seq := { s.seq with level := r, matched := matched } }

def State.setStep (s : State) (k : Nat) : State :=
  { s with seq := { s.seq with step := k } }

def State.setCode (s : State) (c : List Stmt) : State :=
  { s with seq := { s.seq with code := c } }

/-! ## Single statements -/

/-- `k <- k + 1; r <- LineRead(SDA)` of the poll loop (R134). -/
def pollOnce (a : Bool) (s : State) : State :=
  ((s.setPoll (s.seq.poll + 1)).lineRead .sda).setMatch (s.readLevel .sda) (s.readLevel .sda == a)

/-- The poll loop of R134, at most `fuel` iterations: a read that matches ends it, a read that does not is followed by a
wait, the ACK_POLL_MAX-th included. -/
def pollLoop (a : Bool) : Nat → State → State
  | 0, s => s
  | fuel + 1, s =>
    let s1 := pollOnce a s
    if s1.seq.matched then s1
    else pollLoop a fuel (s1.delay Config.hw.ackPollUs)

/-- What follows a failed switch of STORE's step 1 (R172, R181): the restoration attempt, whose outcome raises nothing,
then the pin state drawn, then PIN_RECONF. -/
def restorePins (s : State) : State :=
  ((s.muxSet .i2c).drawPins).raise .pinReconf

/-- `MuxSet(m)` with its caller's reaction to a failure: STORE's step 1 attempts the restoration, every other caller
raises PIN_RECONF (R104, R172, R181). -/
def muxOrFault (m : Mux) (s : State) : State :=
  if s.nextSwitch then s.muxSet m
  else if s.seq.step = 1 then restorePins (s.muxSet m)
  else (s.muxSet m).raise .pinReconf

/-- One whole statement. -/
def doStmt : Stmt → State → State
  | .requireGpio, s => s.requireGpio
  | .requireGpioOut, s => s.requireGpioOut
  | .lineWrite l v, s => s.lineWrite l v
  | .lineDir l d, s => s.lineDir l d
  | .delay d, s => s.delay d
  | .readResult l, s => (s.lineRead l).setResult (s.readLevel l) false
  | .muxSet m, s => muxOrFault m s
  | .restore, s => restorePins s
  | .bitIndex i, s => s.setBit i
  | .frameBit v n, s => s.lineWrite .sda (frameBit s.params.frameBits v n s.seq.bit)
  | .pollReset, s => s.setPoll 0
  | .poll a, s => pollLoop a (Config.hw.ackPollMax - s.seq.poll) s
  | .ackResult, s => s.setAckResult
  | .result r timedOut, s => s.setResult r timedOut
  | .storeStep k, s => s.setStep k

/-! ## A whole command -/

/-- Go on while the command has not been ended by a fault: a raise has set BUSY to 0 (R205). -/
def State.andThen (s : State) (k : State → State) : State :=
  if s.busy then k s else s

/-- The statements one after another, in order (R12, R61). -/
def run : List Stmt → State → State
  | [], s => s
  | st :: rest, s => (doStmt st s).andThen (run rest)

/-- A whole command: `Execute(c); BUSY <- 0` (R55). A fault is an end of the command, not of the machine (R205). -/
def runCommand (code : List Stmt) (s : State) : Host.Outcome State Fault Refusal :=
  .next (run code (s.begin [])).finish

/-! ## One statement of a command in progress -/

/-- The first step of a statement: a poll loop makes one iteration's read and leaves the rest to run, a failed step 1 of
STORE leaves its restoration attempt to run; every other statement runs whole. -/
def startStmt : Stmt → State → State
  | .poll a, s =>
    let s1 := pollOnce a s
    if s1.seq.matched then s1
    else
      s1.setCode (.delay Config.hw.ackPollUs ::
        if Config.hw.ackPollMax ≤ s1.seq.poll then s1.seq.code else .poll a :: s1.seq.code)
  | .muxSet m, s =>
    if s.nextSwitch then s.muxSet m
    else if s.seq.step = 1 then (s.muxSet m).setCode [.restore]
    else (s.muxSet m).raise .pinReconf
  | .requireGpio, s => doStmt .requireGpio s
  | .requireGpioOut, s => doStmt .requireGpioOut s
  | .lineWrite l v, s => doStmt (.lineWrite l v) s
  | .lineDir l d, s => doStmt (.lineDir l d) s
  | .delay d, s => doStmt (.delay d) s
  | .readResult l, s => doStmt (.readResult l) s
  | .restore, s => doStmt .restore s
  | .bitIndex i, s => doStmt (.bitIndex i) s
  | .frameBit v n, s => doStmt (.frameBit v n) s
  | .pollReset, s => doStmt .pollReset s
  | .ackResult, s => doStmt .ackResult s
  | .result r timedOut, s => doStmt (.result r timedOut) s
  | .storeStep k, s => doStmt (.storeStep k) s

/-- One step of the sequencer. Idle, it does nothing; with no statement left, the command ends (R31). -/
def tick (s : State) : State :=
  if s.busy then
    match s.seq.code with
    | [] => s.finish
    | st :: rest => startStmt st (s.setCode rest)
  else s

/-- `n` steps of the sequencer. -/
def ticks : Nat → State → State
  | 0, s => s
  | n + 1, s => ticks n (tick s)

end Sys2Proof.Machine
end

