-- ==== Sys2Proof/Machine/Line.lean ====
section
/-!
DEFINITION. The GPIO line, multiplexer and timing commands: LDIR, LWR, LRD, LMUX, WAITU, WAITM (R101 to R106). Each has
its pseudocode as a list of statements (its body) and its meaning, the body run as a whole command.
-/

namespace Sys2Proof.Machine

/-- LDIR's pseudocode (R101). -/
def ldirBody (l : Line) (d : Dir) : List Stmt :=
  [.requireGpio, .lineDir l d]

/-- LDIR (R101). -/
def execLdir (l : Line) (d : Dir) (s : State) : Host.Outcome State Fault Refusal :=
  runCommand (ldirBody l d) s

/-- LWR's pseudocode (R102). -/
def lwrBody (l : Line) (v : Bool) : List Stmt :=
  [.requireGpio, .lineWrite l v]

/-- LWR (R102). -/
def execLwr (l : Line) (v : Bool) (s : State) : Host.Outcome State Fault Refusal :=
  runCommand (lwrBody l v) s

/-- LRD's pseudocode (R103). -/
def lrdBody (l : Line) : List Stmt :=
  [.requireGpio, .readResult l]

/-- LRD (R103). -/
def execLrd (l : Line) (s : State) : Host.Outcome State Fault Refusal :=
  runCommand (lrdBody l) s

/-- LMUX's pseudocode (R104): no mode check, PIN_RECONF when the switch fails. -/
def lmuxBody (m : Mux) : List Stmt :=
  [.muxSet m]

/-- LMUX (R104). -/
def execLmux (m : Mux) (s : State) : Host.Outcome State Fault Refusal :=
  runCommand (lmuxBody m) s

/-- WAITU's pseudocode (R105). -/
def waituBody (c : BitVec 12) : List Stmt :=
  [.delay (microsOfU c)]

/-- WAITU (R105). -/
def execWaitu (c : BitVec 12) (s : State) : Host.Outcome State Fault Refusal :=
  runCommand (waituBody c) s

/-- WAITM's pseudocode (R106). -/
def waitmBody (c : BitVec 12) : List Stmt :=
  [.delay (microsOfM c)]

/-- WAITM (R106). -/
def execWaitm (c : BitVec 12) (s : State) : Host.Outcome State Fault Refusal :=
  runCommand (waitmBody c) s

end Sys2Proof.Machine
end

