-- ==== Sys2Proof/Machine/Signal.lean ====
section
/-!
DEFINITION. The signal layer: START, STOP, SEND, RACK and the ack cycle (R130 to R135), statement by statement as the
pseudocode has them.
-/

namespace Sys2Proof.Machine

/-- START's pseudocode (R130). -/
def startBody : List Stmt :=
  [.requireGpioOut,
   .lineWrite .scl true,
   .lineWrite .sda true,
   .delay Config.hw.tPre,
   .lineWrite .sda false,
   .delay Config.hw.tPost,
   .lineWrite .scl false,
   .delay Config.hw.tCycle]

/-- START (R130). -/
def execStart (s : State) : Host.Outcome State Fault Refusal :=
  runCommand startBody s

/-- STOP's pseudocode (R131). -/
def stopBody : List Stmt :=
  [.requireGpioOut,
   .lineWrite .sda false,
   .delay Config.hw.tPre,
   .lineWrite .scl true,
   .delay Config.hw.tCycle,
   .lineWrite .sda true,
   .delay Config.hw.tCycle]

/-- STOP (R131). -/
def execStop (s : State) : Host.Outcome State Fault Refusal :=
  runCommand stopBody s

/-- Iteration `i` of SEND's bit loop (R133). -/
def bitPeriod (v : Byte) (n i : Nat) : List Stmt :=
  [.bitIndex i,
   .frameBit v n,
   .delay Config.hw.tPre,
   .lineWrite .scl true,
   .delay Config.hw.tCycle,
   .lineWrite .scl false,
   .delay Config.hw.tPost]

/-- SEND's bit loop, i = 0 to N - 1 (R133, R14). -/
def bitLoop (v : Byte) (n : Nat) : List Stmt :=
  (List.range n).flatMap (bitPeriod v n)

/-- `AckCycle(A)` (R134), with the write of its result to RES and TO that follows it in SEND and RACK. -/
def ackCycle (a : Bool) : List Stmt :=
  [.lineDir .sda .input,
   .delay Config.hw.tPre,
   .lineWrite .scl true,
   .delay Config.hw.tPost,
   .pollReset,
   .poll a,
   .delay Config.hw.tPre,
   .lineWrite .scl false,
   .delay Config.hw.tPost,
   .lineDir .sda .output,
   .ackResult]

/-- SEND's ending without the ack cycle (R133). -/
def noAckEnd (a : Bool) : List Stmt :=
  [.lineWrite .sda false, .lineWrite .scl true, .result a false]

/-- SEND's pseudocode (R133). -/
def sendBody (v : Byte) (n : Nat) (a w : Bool) : List Stmt :=
  .requireGpioOut :: bitLoop v n ++ if w then ackCycle a else noAckEnd a

/-- SEND (R133). -/
def execSend (v : Byte) (n : Nat) (a w : Bool) (s : State) : Host.Outcome State Fault Refusal :=
  runCommand (sendBody v n a w) s

/-- RACK's pseudocode (R135). -/
def rackBody (a : Bool) : List Stmt :=
  .requireGpioOut :: ackCycle a

/-- RACK (R135). -/
def execRack (a : Bool) (s : State) : Host.Outcome State Fault Refusal :=
  runCommand (rackBody a) s

end Sys2Proof.Machine
end

