-- ==== Sys2Proof/Machine/Store.lean ====
section
/-!
DEFINITION. The store sequence controller: STORE (R170 to R183), its eight steps over the bodies of START, SEND and STOP.
-/

namespace Sys2Proof.Machine

/-- Steps 2 and 6, the head (R173). -/
def headSteps : List Stmt :=
  startBody ++ sendBody Config.hw.head Config.hw.headBits false false ++ stopBody

/-- A send with the source's defaults: 8 bits, expected ack 0, wait for ack (R92, R174, R178). -/
def sendDefault (v : Byte) : List Stmt :=
  sendBody v Config.hw.defaultBits Config.hw.defaultAck true

/-- Steps 3 and 7, an address byte and a command byte (R174, R178). -/
def pairSteps (cmd : Byte) : List Stmt :=
  startBody ++ sendDefault Config.hw.addr ++ sendDefault cmd ++ stopBody

/-- Step 4: the address byte once, CMD2 repeated, each expecting ack 1 (R175, C1). -/
def addressSteps (da : BitVec 7) : List Stmt :=
  startBody ++ sendBody (addressByte da) 8 true true
    ++ (List.replicate Config.hw.storeRepeat (sendBody Config.hw.cmd2 8 true true)).flatten ++ stopBody

/-- STORE's pseudocode (R172). -/
def storeBody (da : BitVec 7) : List Stmt :=
  [.storeStep 1, .muxSet .gpio]
    ++ .storeStep 2 :: headSteps
    ++ .storeStep 3 :: pairSteps Config.hw.cmd1
    ++ .storeStep 4 :: addressSteps da
    ++ [.storeStep 5, .delay (1000 * Config.hw.storeDelayMs)]
    ++ .storeStep 6 :: headSteps
    ++ .storeStep 7 :: pairSteps Config.hw.cmd2
    ++ [.storeStep 8, .muxSet .i2c, .result false false]

/-- STORE (R172). -/
def execStore (da : BitVec 7) (s : State) : Host.Outcome State Fault Refusal :=
  runCommand (storeBody da) s

end Sys2Proof.Machine
end

