-- ==== Sys2Proof/Machine/Dispatch.lean ====
section
/-!
DEFINITION. `Execute(c)` of R55, one arm per command.
-/

namespace Sys2Proof.Machine

def exec (i : Instr) (s : State) : Host.Outcome State Fault Refusal :=
  match i with
  | .start => Sys2Proof.Machine.execStart s
  | .stop => Sys2Proof.Machine.execStop s
  | .send v n a w => Sys2Proof.Machine.execSend v n a w s
  | .rack a => Sys2Proof.Machine.execRack a s
  | .store da => Sys2Proof.Machine.execStore da s
  | .ldir l d => Sys2Proof.Machine.execLdir l d s
  | .lwr l v => Sys2Proof.Machine.execLwr l v s
  | .lrd l => Sys2Proof.Machine.execLrd l s
  | .lmux m => Sys2Proof.Machine.execLmux m s
  | .waitu c => Sys2Proof.Machine.execWaitu c s
  | .waitm c => Sys2Proof.Machine.execWaitm c s

end Sys2Proof.Machine
end

