-- ==== Sys2Proof/Machine/Port.lean ====
section
/-!
DEFINITION. The host's side of the block (20_memory.md): a write to CMD (R55) that waits for the end of the command or
does not, the hold while busy (R56), register reads (R57, R59), partial accesses (R58), reset (R240, R241), and which of
host and sequencer moves next (log 2).
-/

namespace Sys2Proof.Machine

/-- The pseudocode of each command, for a command the host does not wait for. -/
def body : Instr → List Stmt
  | .start => startBody
  | .stop => stopBody
  | .send v n a w => sendBody v n a w
  | .rack a => rackBody a
  | .store da => storeBody da
  | .ldir l d => ldirBody l d
  | .lwr l v => lwrBody l v
  | .lrd l => lrdBody l
  | .lmux m => lmuxBody m
  | .waitu c => waituBody c
  | .waitm c => waitmBody c

/-- The block accepts word `w`: LASTCMD takes it and BUSY becomes 1 (R55, R37, R31). -/
def State.accept (s : State) (w : Word) : State :=
  { s with lastCmd := w, busy := true }

/-- `HostWriteCmd(w)` (R55) up to the end of the command: discarded while FAULT = 1 (R210), else decoded and run. -/
def hostWriteCmd (w : Word) (s : State) : Host.Outcome State Fault Refusal :=
  if s.fault then .next s
  else
    match decode w with
    | .ok i => exec i (s.accept w)
    | .error _ => .next ((s.accept w).raise .illegalCmd)

/-- `HostWriteCmd(w)` (R55) up to the acceptance: the command's statements are left to the sequencer. -/
def hostPostCmd (w : Word) (s : State) : State :=
  if s.fault then s
  else
    match decode w with
    | .ok i => (s.accept w).begin (body i)
    | .error _ => (s.accept w).raise .illegalCmd

/-- A host read (R57, R59): the block's state stays, the host has the value; while BUSY = 1 a draw is used up. -/
def hostRead (off : Nat) (s : State) : State :=
  { (if s.busy then s.takeValue else s) with readData := some (s.readRegister off) }

/-- A write to CMD, which waits while BUSY = 1 (R56). -/
def HostOp.heldByBusy : HostOp → Bool
  | .write off _ => off == 0
  | .post off _ => off == 0
  | .read _ => false
  | .partialAccess => false
  | .reset => false

/-- One host operation, at a moment when it is not held. Writes to other registers than CMD are ignored (R59). -/
def hostOp (op : HostOp) (s : State) : Host.Outcome State Fault Refusal :=
  match op with
  | .write off w => if off = 0 then hostWriteCmd w s else .next s
  | .post off w => if off = 0 then .next (hostPostCmd w s) else .next s
  | .read off => .next (hostRead off s)
  | .partialAccess => .refused .partialAccess
  | .reset => .next s.resetBlock

/-- Whether the sequencer, and not the host, moves next: a command is in progress, and the next host event is not due
yet, is held (R56), or there is none. -/
def sequencerMoves (s : State) : Bool :=
  s.busy && match s.host with
    | [] => true
    | e :: _ => decide (0 < e.after) || e.op.heldByBusy

/-- The next host event is one statement nearer. -/
def State.countDown (s : State) : State :=
  { s with host := match s.host with
      | [] => []
      | e :: rest => { e with after := e.after - 1 } :: rest }

/-- One step of the whole machine: the sequencer runs one statement, or the host's next event happens, or, with the block
idle and the host silent, nothing does (R242). -/
def stepOnce (s : State) : Host.Outcome State Fault Refusal :=
  if sequencerMoves s then .next (tick s.countDown)
  else
    match s.host with
    | [] => .next s
    | e :: rest => hostOp e.op { s with host := rest }

/-- The state with word `w` as what the host writes to CMD next, waiting for its end, and the block ready to take it:
idle and without a fault (log 17). -/
def State.withHostWrite (s : State) (w : Word) : State :=
  { s with host := ⟨.write 0 w, 0⟩ :: s.host, busy := false, seq := Seq.idle, fault := false, err := .none }

end Sys2Proof.Machine
end

