-- ==== Sys2Proof/Machine/Step.lean ====
section
/-!
DEFINITION. The machine's step, and how a given command word comes to be the next one run. The block fetches nothing
(R65): the host writes each command.
-/

namespace Sys2Proof.Machine

/-- One step of the machine (log 1, log 2). -/
def step (s : State) : Host.Outcome State Fault Refusal :=
  stepOnce s

/-- `s` with the command word of bits `w` (above `nbits` zero) as the host's next write to CMD (log 17). -/
def State.withFetchWord (s : State) (nbits w : Nat) : State :=
  s.withHostWrite (BitVec.ofNat 16 (w % 2 ^ nbits))

end Sys2Proof.Machine
end

