-- ==== Sys2Proof/Machine/Assembler.lean ====
section
/-!
DEFINITION. The notation for command words: the source's call forms (R92), the pseudo-instructions (R93) and the
assembler's text (R91). A notation only (R19, D29): no step of the machine reads it. Details the spec does not give are
in log 24.
-/

namespace Sys2Proof.Machine

/-! ## Operand ranges (R91): an operand outside its range is an assembly error -/

/-- A one-bit operand, 0 or 1. -/
def bitOperand : Nat → Option Bool
  | 0 => some false
  | 1 => some true
  | _ => none

/-- SEND with operands checked: v 0 to 255, n 1 to 8, a and w 0 or 1. -/
def asmSend (v n a w : Nat) : Option Instr :=
  match bitOperand a, bitOperand w with
  | some a', some w' =>
    if v ≤ 255 ∧ 1 ≤ n ∧ n ≤ 8 then some (.send (BitVec.ofNat 8 v) n a' w') else none
  | _, _ => none

/-- STORE with its operand checked: 0 to 127. -/
def asmStore (da : Nat) : Option Instr :=
  if da ≤ 127 then some (.store (BitVec.ofNat 7 da)) else none

/-- WAITU with its operand checked: 0 to 4095. -/
def asmWaitu (c : Nat) : Option Instr :=
  if c ≤ 4095 then some (.waitu (BitVec.ofNat 12 c)) else none

/-- WAITM with its operand checked: 0 to 4095. -/
def asmWaitm (c : Nat) : Option Instr :=
  if c ≤ 4095 then some (.waitm (BitVec.ofNat 12 c)) else none

/-! ## Pseudo-instructions (R93) -/

/-- `SENDB v`: a value of any size, masked to 8 bits, with the source's defaults. -/
def sendb (v : Nat) : Instr :=
  .send (BitVec.ofNat 8 v) Config.hw.defaultBits Config.hw.defaultAck true

/-- `SENDK v, a`. -/
def sendk (v : Nat) (a : Bool) : Instr :=
  .send (BitVec.ofNat 8 v) Config.hw.defaultBits a true

/-- `HEAD`. -/
def headCmd : Instr :=
  .send Config.hw.head Config.hw.headBits false false

/-- `RAW`. -/
def rawCmd : Instr :=
  .lmux .gpio

/-- `UNRAW`. -/
def unrawCmd : Instr :=
  .lmux .i2c

/-- `WAIT d`, d microseconds, any natural. -/
def waitCmds (d : Nat) : List Instr :=
  List.replicate (d / 4095000) (.waitm 4095)
    ++ (if d % 4095000 / 1000 = 0 then [] else [.waitm (BitVec.ofNat 12 (d % 4095000 / 1000))])
    ++ (if d % 1000 = 0 then [] else [.waitu (BitVec.ofNat 12 (d % 1000))])

/-- The microseconds a command is sure to wait (R105, R106); 0 for the commands that are no wait. -/
def waitOf : Instr → Nat
  | .waitu c => microsOfU c
  | .waitm c => microsOfM c
  | .start => 0
  | .stop => 0
  | .send _ _ _ _ => 0
  | .rack _ => 0
  | .store _ => 0
  | .ldir _ _ => 0
  | .lwr _ _ => 0
  | .lrd _ => 0
  | .lmux _ => 0

/-! ## The source's calls (R92) -/

/-- A call of the source; a default argument is passed explicitly with `Config.hw`'s default. `sleep` counts microseconds. -/
inductive SourceCall where
  | emitStart
  | emitStop
  | sendByte (value : Nat) (expectedAck : Bool) (bitCount : Nat) (waitForAck : Bool)
  | receiveAck (expectedAck : Bool)
  | store (deviceAddress : Nat)
  | setDirection (l : Line) (d : Dir)
  | write (l : Line) (v : Bool)
  | read (l : Line)
  | sleep (micros : Nat)
  | reconfigure (m : Mux)
  deriving DecidableEq, Repr

/-- The commands a call becomes; none where it has no encoding (R76, D10; U12). -/
def commandsOf : SourceCall → Option (List Instr)
  | .emitStart => some [.start]
  | .emitStop => some [.stop]
  | .sendByte value a n w =>
    if 1 ≤ n ∧ n ≤ 8 then some [.send (BitVec.ofNat 8 value) n a w] else none
  | .receiveAck a => some [.rack a]
  | .store da => (asmStore da).map fun i => [i]
  | .setDirection l d => some [.ldir l d]
  | .write l v => some [.lwr l v]
  | .read l => some [.lrd l]
  | .sleep micros => some (waitCmds micros)
  | .reconfigure m => some [.lmux m]

/-! ## Text (R91) -/

/-- A digit's value, up to the base: 0 to 9, a to f or A to F. -/
def digitValue (base : Nat) (c : Char) : Option Nat :=
  let v :=
    if '0' ≤ c ∧ c ≤ '9' then c.toNat - 48
    else if 'a' ≤ c ∧ c ≤ 'f' then c.toNat - 87
    else if 'A' ≤ c ∧ c ≤ 'F' then c.toNat - 55
    else base
  if v < base then some v else none

/-- A row of digits after the value read so far. -/
def digitsFrom (base : Nat) : Nat → List Char → Option Nat
  | acc, [] => some acc
  | acc, c :: cs =>
    match digitValue base c with
    | some v => digitsFrom base (acc * base + v) cs
    | none => none

/-- A number, decimal or `0x` hexadecimal. -/
def parseNumber : List Char → Option Nat
  | [] => none
  | '0' :: 'x' :: c :: cs => digitsFrom 16 0 (c :: cs)
  | c :: cs => digitsFrom 10 0 (c :: cs)

/-- A line operand, SCL or SDA. -/
def parseLine (cs : List Char) : Option Line :=
  if cs = ['S', 'C', 'L'] then some .scl
  else if cs = ['S', 'D', 'A'] then some .sda
  else none

/-- A direction operand, IN or OUT. -/
def parseDir (cs : List Char) : Option Dir :=
  if cs = ['I', 'N'] then some .input
  else if cs = ['O', 'U', 'T'] then some .output
  else none

/-- A level operand, LOW, HIGH, 0 or 1. -/
def parseLevel (cs : List Char) : Option Bool :=
  if cs = ['L', 'O', 'W'] then some false
  else if cs = ['H', 'I', 'G', 'H'] then some true
  else (parseNumber cs).bind bitOperand

/-- A multiplexer operand, I2C or GPIO. -/
def parseMux (cs : List Char) : Option Mux :=
  if cs = ['I', '2', 'C'] then some .i2c
  else if cs = ['G', 'P', 'I', 'O'] then some .gpio
  else none

/-- White space: a space or a tab. -/
def isBlank (c : Char) : Bool :=
  c == ' ' || c == '\t' || c == '\r'

/-- A text without the blanks at its ends. -/
def trim (cs : List Char) : List Char :=
  ((cs.dropWhile isBlank).reverse.dropWhile isBlank).reverse

/-- The pieces of a text between occurrences of a separator. -/
def splitAtChar (sep : Char) : List Char → List (List Char)
  | [] => [[]]
  | c :: cs =>
    if c = sep then [] :: splitAtChar sep cs
    else
      match splitAtChar sep cs with
      | [] => [[c]]
      | p :: ps => (c :: p) :: ps

/-- A line up to its comment. -/
def uncomment (cs : List Char) : List Char :=
  cs.takeWhile fun c => c != ';'

/-- The operands of a line, separated by commas; none at all when nothing is left. -/
def operandsOf (cs : List Char) : List (List Char) :=
  if trim cs = [] then [] else (splitAtChar ',' cs).map trim

/-- A mnemonic with its operands. -/
def asmCommand (m : List Char) (ops : List (List Char)) : Option (List Instr) :=
  match String.ofList m, ops with
  | "START", [] => some [.start]
  | "STOP", [] => some [.stop]
  | "SEND", [v, n, a, w] =>
    match parseNumber v, parseNumber n, parseNumber a, parseNumber w with
    | some v, some n, some a, some w => (asmSend v n a w).map fun i => [i]
    | _, _, _, _ => none
  | "RACK", [a] => ((parseNumber a).bind bitOperand).map fun a => [.rack a]
  | "STORE", [da] => ((parseNumber da).bind asmStore).map fun i => [i]
  | "LDIR", [l, d] =>
    match parseLine l, parseDir d with
    | some l, some d => some [.ldir l d]
    | _, _ => none
  | "LWR", [l, v] =>
    match parseLine l, parseLevel v with
    | some l, some v => some [.lwr l v]
    | _, _ => none
  | "LRD", [l] => (parseLine l).map fun l => [.lrd l]
  | "LMUX", [m] => (parseMux m).map fun m => [.lmux m]
  | "WAITU", [c] => ((parseNumber c).bind asmWaitu).map fun i => [i]
  | "WAITM", [c] => ((parseNumber c).bind asmWaitm).map fun i => [i]
  | "SENDB", [v] => (parseNumber v).map fun v => [sendb v]
  | "SENDK", [v, a] =>
    match parseNumber v, (parseNumber a).bind bitOperand with
    | some v, some a => some [sendk v a]
    | _, _ => none
  | "HEAD", [] => some [headCmd]
  | "RAW", [] => some [rawCmd]
  | "UNRAW", [] => some [unrawCmd]
  | "WAIT", [d] => (parseNumber d).map waitCmds
  | _, _ => none

/-- One line of assembler text: a command, or nothing but blanks and a comment. -/
def asmLine (cs : List Char) : Option (List Instr) :=
  let text := trim (uncomment cs)
  if text = [] then some []
  else
    asmCommand (text.takeWhile fun c => !isBlank c)
      (operandsOf (text.dropWhile fun c => !isBlank c))

/-- The commands of the lines of a text, one line after another; no command at all if a line is an error. -/
def asmLines : List (List Char) → Option (List Instr)
  | [] => some []
  | l :: ls =>
    match asmLine l, asmLines ls with
    | some i, some is => some (i ++ is)
    | _, _ => none

/-- A whole assembler text to command words. -/
def assemble (text : String) : Option (List Word) :=
  (asmLines (splitAtChar '\n' text.toList)).map fun is => is.map encode

end Sys2Proof.Machine
end

