-- ==== Sys2Proof/Safety.lean ====
section
/-!
DEFINITION. The terms claims about the block are made in (R17, R18): what a run's trace says, when a run is successful,
what the host must do (R243, R250 to R258), the invariant of the machine, and the least durations (R139, R185, R261).
-/

namespace Sys2Proof.Machine

/-! ## Ends of runs -/

/-- No command is in execution (R22, R31). -/
def State.idle (s : State) : Prop :=
  s.busy = false ∧ s.seq = Seq.idle

/-- A successful final state (R18): the command has ended and no fault has. -/
def State.successful (s : State) : Prop :=
  s.busy = false ∧ s.fault = false

/-- Both lines have direction OUT (R41, R256). -/
def State.linesOut (s : State) : Prop :=
  s.scl.dir = .output ∧ s.sda.dir = .output

/-- The condition under which a command raises no MODE_ERR (R100, R243, R256). -/
def ready : Instr → State → Prop
  | .start, s => s.gpioOut
  | .stop, s => s.gpioOut
  | .send _ _ _ _, s => s.gpioOut
  | .rack _, s => s.gpioOut
  | .store _, _ => True
  | .ldir _ _, s => s.mux = .gpio
  | .lwr _ _, s => s.mux = .gpio
  | .lrd _, s => s.mux = .gpio
  | .lmux _, _ => True
  | .waitu _, _ => True
  | .waitm _, _ => True

/-- Both switches a STORE makes will succeed: they cannot fail, or the environment has said so (R30, D16). -/
def State.bothSwitchesSucceed (s : State) : Prop :=
  s.params.muxCanFail = false ∨ ∃ rest, s.env.switches = true :: true :: rest

/-- STORE's first switch will succeed and its second fail (R181). -/
def State.secondSwitchFails (s : State) : Prop :=
  s.params.muxCanFail = true ∧ ∃ rest, s.env.switches = true :: false :: rest

/-- The bit `b` at place `k` of a command word. -/
def bitAt (b : Bool) (k : Nat) : Word :=
  if b then 1#16 <<< k else 0#16

/-- MUX and both line states are the five bits of the undefined value `v` (R30; which bit is which is log 3). -/
def pinsDrawnFrom (v : Word) (s : State) : Prop :=
  s.mux = (if v.getLsbD 0 then .gpio else .i2c) ∧
    s.scl = { dir := if v.getLsbD 1 then .output else .input, lat := v.getLsbD 2 } ∧
    s.sda = { dir := if v.getLsbD 3 then .output else .input, lat := v.getLsbD 4 }

/-! ## Traces -/

/-- A piece of trace beginning at time `t0` and ending at time `t1`: each event starts when the one before it has ended,
and lasts at least its lower bound (R33, R34, R61). -/
def Timed : Nat → List (Nat × Event) → Nat → Prop
  | t0, [], t1 => t0 = t1
  | t0, x :: rest, t1 => x.1 = t0 ∧ ∃ t', t0 + x.2.minTime ≤ t' ∧ Timed t' rest t1

/-- From `s` to `t` the trace grew by exactly the events `evs`, in this order, timed as their lower bounds ask. -/
def Emits (s t : State) (evs : List Event) : Prop :=
  ∃ new, t.trace = s.trace ++ new ∧ new.map Prod.snd = evs ∧ Timed s.t new t.t

/-- What no command writes unless it ends with a fault: FAULT, ERR; and what no command writes at all: LASTCMD (the port
does, R55), the parameters, the host's agenda and the data of its last read. -/
def SameRest (s t : State) : Prop :=
  t.fault = s.fault ∧ t.err = s.err ∧ t.lastCmd = s.lastCmd ∧ t.params = s.params ∧ t.host = s.host ∧
    t.readData = s.readData

/-- The state a fault entry leaves from `s` (R205): FAULT and ERR written, BUSY 0, nothing else of the block changed. -/
def faulted (s : State) (c : ErrCode) : State :=
  { s with fault := true, err := if s.fault then s.err else c, busy := false, seq := Seq.idle }

/-! ## What the commands put on the trace -/

/-- START's events (R130). -/
def startEvents : List Event :=
  [.write .scl true, .write .sda true, .delay 2, .write .sda false, .delay 3, .write .scl false, .delay 5]

/-- STOP's events (R131). -/
def stopEvents : List Event :=
  [.write .sda false, .delay 2, .write .scl true, .delay 5, .write .sda true, .delay 5]

/-- One clock period of SEND's bit loop for the bit `b` (R133, R262). -/
def bitEvents (b : Bool) : List Event :=
  [.write .sda b, .delay 2, .write .scl true, .delay 5, .write .scl false, .delay 3]

/-- SEND's bit loop: N periods, the bits most significant first (R132, R133, R136). -/
def frameEvents (sel : Config.FrameBitSelect) (v : Byte) (n : Nat) : List Event :=
  (List.range n).flatMap fun i => bitEvents (frameBit sel v n i)

/-- The no-ack ending's events (R133). -/
def noAckEvents : List Event :=
  [.write .sda false, .write .scl true]

/-- The poll loop's events for the reads `rs`: a wait after each read that is not the expected level (R134). -/
def pollEvents (a : Bool) (rs : List Bool) : List Event :=
  rs.flatMap fun r => if r = a then [.read .sda r] else [.read .sda r, .delay 1]

/-- The ack cycle's events for the reads `rs` (R134). -/
def ackEvents (a : Bool) (rs : List Bool) : List Event :=
  [.dir .sda .input, .delay 2, .write .scl true, .delay 3] ++ pollEvents a rs
    ++ [.delay 2, .write .scl false, .delay 3, .dir .sda .output]

/-- The reads an ack cycle can make (R134): 1 to 250 of them; none but the last matches; fewer than 250 only if the last
matches. -/
def ackReads (a : Bool) (rs : List Bool) : Prop :=
  1 ≤ rs.length ∧ rs.length ≤ 250 ∧ (∀ r ∈ rs.dropLast, r ≠ a) ∧
    (rs.length < 250 → rs.getLast? = some a)

/-- The reads of an ack cycle are the environment's answers in order, as far as they are listed (R27, R8). -/
def answeredBy (rs answers : List Bool) : Prop :=
  rs.take answers.length = answers.take rs.length

/-- A read (R27). -/
def Event.isRead : Event → Bool
  | .read _ _ => true
  | .write _ _ => false
  | .dir _ _ => false
  | .mux _ _ => false
  | .delay _ => false

/-- An event that an ack cycle repeats as often as it polls: a read or a 1 us poll wait. -/
def isPoll : Event → Bool
  | .read _ _ => true
  | .delay d => d == 1
  | .write _ _ => false
  | .dir _ _ => false
  | .mux _ _ => false

/-- A SEND with W = 1, its polling left out. -/
def sendSignal (sel : Config.FrameBitSelect) (v : Byte) (n : Nat) : List Event :=
  frameEvents sel v n ++ [.dir .sda .input, .delay 2, .write .scl true, .delay 3, .delay 2, .write .scl false,
    .delay 3, .dir .sda .output]

/-- The head of STORE's steps 2 and 6 (R173). -/
def headSignal (sel : Config.FrameBitSelect) : List Event :=
  startEvents ++ frameEvents sel 0x02#8 3 ++ noAckEvents ++ stopEvents

/-- Everything STORE puts on the trace before its step 8, its polling left out (R172 to R178). -/
def storeSignal (sel : Config.FrameBitSelect) (da : BitVec 7) : List Event :=
  [.mux .gpio true] ++ headSignal sel
    ++ (startEvents ++ sendSignal sel 0x10#8 8 ++ sendSignal sel 0x03#8 8 ++ stopEvents)
    ++ (startEvents ++ sendSignal sel (da ++ 0#1) 8
        ++ (List.replicate 8 (sendSignal sel 0x00#8 8)).flatten ++ stopEvents)
    ++ [.delay 10000] ++ headSignal sel
    ++ (startEvents ++ sendSignal sel 0x10#8 8 ++ sendSignal sel 0x00#8 8 ++ stopEvents)

/-- The store sequence by hand (program P3 of 95_test_vectors.md), as commands. -/
def storeByHand (da : BitVec 7) : List Instr :=
  [rawCmd, .start, headCmd, .stop, .start, sendb 0x10, sendb 0x03, .stop, .start, .send (addressByte da) 8 true true]
    ++ List.replicate 8 (sendk 0x00 true)
    ++ [.stop, .waitm 10, .start, headCmd, .stop, .start, sendb 0x10, sendb 0x00, .stop, unrawCmd]

/-- Commands executed one after another. -/
def execAll : List Instr → State → Host.Outcome State Fault Refusal
  | [], s => .next s
  | i :: is, s =>
    match exec i s with
    | .next t => execAll is t
    | .fault r => .fault r
    | .refused r => .refused r

/-! ## Bus conditions (R138, from general knowledge, GK1; log 23) -/

/-- A start condition is a falling, a stop condition a rising edge of SDA while SCL is high. -/
inductive BusCondition where
  | start
  | stop
  deriving DecidableEq, Repr

/-- The conditions a run of events makes on lines that both stay driven, from the levels `scl` and `sda`. -/
def busConditions : Bool → Bool → List Event → List BusCondition
  | _, _, [] => []
  | _, sda, .write .scl v :: es => busConditions v sda es
  | scl, sda, .write .sda v :: es =>
    (if scl && sda && !v then [.start] else if scl && !sda && v then [.stop] else [])
      ++ busConditions scl v es
  | scl, sda, .read _ _ :: es => busConditions scl sda es
  | scl, sda, .dir _ _ :: es => busConditions scl sda es
  | scl, sda, .mux _ _ :: es => busConditions scl sda es
  | scl, sda, .delay _ :: es => busConditions scl sda es

/-- Every read of the events is made while SCL is high, from the level `scl` (R138). -/
def readsWhileSclHigh : Bool → List Event → Bool
  | _, [] => true
  | _, .write .scl v :: es => readsWhileSclHigh v es
  | scl, .write .sda _ :: es => readsWhileSclHigh scl es
  | scl, .read _ _ :: es => scl && readsWhileSclHigh scl es
  | scl, .dir _ _ :: es => readsWhileSclHigh scl es
  | scl, .mux _ _ :: es => readsWhileSclHigh scl es
  | scl, .delay _ :: es => readsWhileSclHigh scl es

/-! ## Least durations (R139, R185, R261) -/

/-- The least time of a command that raises nothing: for SEND with W = 1, RACK and STORE, when every ack cycle matches on
its first read. -/
def minDuration : Instr → Nat
  | .start => 10
  | .stop => 12
  | .send _ n _ w => if w then 10 * n + 10 else 10 * n
  | .rack _ => 10
  | .store _ => 11340
  | .ldir _ _ => 0
  | .lwr _ _ => 0
  | .lrd _ => 0
  | .lmux _ => 0
  | .waitu c => c.toNat
  | .waitm c => 1000 * c.toNat

/-! ## The machine's invariant -/

/-- Times do not fall along a trace, and none is after `t` (R34, R35, R61). -/
def TraceOrdered (trace : List (Nat × Event)) (t : Nat) : Prop :=
  trace.Pairwise (fun x y => x.1 ≤ y.1) ∧ ∀ x ∈ trace, x.1 ≤ t

/-- What every step keeps: ERR is NONE exactly when FAULT is 0 (R36); a fault has ended its command (R205); with BUSY = 0
the sequencer is idle (R31, R38); the trace is in the order of time and not ahead of it (R35, R61). -/
def State.Inv (s : State) : Prop :=
  (s.fault = false ↔ s.err = .none) ∧ (s.fault = true → s.busy = false) ∧
    (s.busy = false → s.seq = Seq.idle) ∧ TraceOrdered s.trace s.t

/-! ## Host duties -/

/-- A statement that enters a step of STORE (R172). -/
def Stmt.entersStore : Stmt → Bool
  | .storeStep _ => true
  | _ => false

/-- A STORE is in execution, from its acceptance on: it is in one of its steps, or has one to enter (R31, R38, R172). -/
def State.storeRunning (s : State) : Bool :=
  s.busy && (decide (s.seq.step ≠ 0) || s.seq.code.any Stmt.entersStore)

/-- Which operations the host may make at a moment. A write while BUSY = 1 accepts the stall of R56 (D18's host table), and
reads may be made at any time (R57), so the host may poll STATUS (R250); a partial access it may not make (R58); a reset
during STORE it may not make (R254). -/
def HostOp.keepsDuty : HostOp → State → Bool
  | .write _ _, _ => true
  | .post _ _, _ => true
  | .read _, _ => true
  | .partialAccess, _ => false
  | .reset, s => !s.storeRunning

/-- The word the host has read from STATUS shows BUSY = 0 (R52). -/
def showsIdle (status : Word) : Bool :=
  !status.getLsbD 2

/-- R250: the result, RES and TO, that a read of STATUS gives the host; none while it shows BUSY = 1. -/
def resultOf (status : Word) : Option (Bool × Bool) :=
  if showsIdle status then some (status.getLsbD 0, status.getLsbD 1) else none

/-- The word the host has read from STATUS shows FAULT = 1 with ERR = PIN_RECONF: the pins are undefined, MUX is a draw, and
only reset restores them (R204, R252). -/
def showsPinsUndefined (status : Word) : Bool :=
  status.getLsbD 3 && status.extractLsb' 4 2 == ErrCode.pinReconf.code

/-- Having read this from STATUS, and until it writes a command, the host may use the I2C peripheral: no command is in
execution (R250), MUX = I2C (R251), and no failed switch has left the pins undefined (R252). That nothing else forbids it is
the model's reading (log 30). -/
def mayUsePeripheral (status : Word) : Bool :=
  showsIdle status && !status.getLsbD 6 && !showsPinsUndefined status

/-- R257: every no-ack SEND of a command sequence is followed by STOP. -/
def noAckThenStop : List Instr → Bool
  | [] => true
  | .send _ _ _ false :: rest => decide (rest.head? = some .stop) && noAckThenStop rest
  | _ :: rest => noAckThenStop rest

/-- R252: after the last LMUX of a command sequence, or a STORE, the pins are with the I2C peripheral; `m` is the setting
before the sequence. -/
def restoresPins (m : Mux) : List Instr → Bool
  | [] => decide (m = .i2c)
  | .lmux m' :: rest => restoresPins m' rest
  | .store _ :: rest => restoresPins .i2c rest
  | _ :: rest => restoresPins m rest

/-- The idle bus (R258, R130): the block drives both lines HIGH. -/
def State.busIdle (s : State) : Bool :=
  decide (s.pin .scl = .driven true) && decide (s.pin .sda = .driven true)

/-- R258 for one command: START only from the idle bus, STOP never from it. -/
def framesDuty : Instr → State → Bool
  | .start, s => s.busIdle
  | .stop, s => !s.busIdle
  | _, _ => true

/-- R258 for a command sequence: every command keeps it in the state that it meets, as long as none has ended with a
fault. -/
def framesFromIdle : List Instr → State → Bool
  | [], _ => true
  | i :: rest, s =>
    framesDuty i s && match exec i s with
      | .next t => t.fault || framesFromIdle rest t
      | .fault _ => true
      | .refused _ => true

end Sys2Proof.Machine
end

