-- ==== Sys2Proof/Certificates/Slice0/Obligations.lean ====
section
/-!
DEFINITION. The statements about the BBI2C block that the provers settle. Each docstring names the rules of spec/ it
comes from.
-/

open Sys2Proof Sys2Proof.Machine

/-! ## Encoding (30_encoding.md) -/

/-- Decode and encode agree (R71, R73 to R80): every command that has an encoding is what its word decodes to. -/
def Obligations.DecodeOfEncodeReturnsCommand : Prop :=
  ∀ i : Instr, i.wf = true → decode (encode i) = .ok i

/-- The other direction (R73): a word that decodes is the only word of its command, and the command has an encoding. -/
def Obligations.EncodeOfDecodeReturnsWord : Prop :=
  ∀ (w : Word) (i : Instr), decode w = .ok i → i.wf = true ∧ encode i = w

/-- R73's last sentence: a word decodes to the one row of the opcode table that matches it, and a word that no row
matches is ILLEGAL. -/
def Obligations.DecodeAgreesWithOpcodeTable : Prop :=
  ∀ w : Word, tableRows w = match decode w with
    | .ok i => [i.mnemonic]
    | .error _ => []

/-- R83: the ILLEGAL words are OP = 000 and the words with a reserved bit set, and an ILLEGAL word written to an idle
block without a fault raises ILLEGAL_CMD, whether or not the host waits. -/
def Obligations.IllegalWordsAreTheReservedOnes : Prop :=
  (∀ w : Word, (∃ e, decode w = .error e) ↔
    (w.extractLsb' 13 3 = 0b000#3 ∨
      (w.extractLsb' 13 3 = 0b001#3 ∨ w.extractLsb' 13 3 = 0b010#3) ∧ w.extractLsb' 0 13 ≠ 0#13 ∨
      w.extractLsb' 13 3 = 0b100#3 ∧ (w.extractLsb' 12 1 = 1#1 ∨ w.extractLsb' 0 11 ≠ 0#11) ∨
      w.extractLsb' 13 3 = 0b101#3 ∧ w.extractLsb' 7 6 ≠ 0#6 ∨
      w.extractLsb' 13 3 = 0b110#3 ∧ (w.extractLsb' 0 9 ≠ 0#9 ∨
        w.extractLsb' 11 2 = 0b10#2 ∧ w.extractLsb' 9 1 = 1#1 ∨
        w.extractLsb' 11 2 = 0b11#2 ∧ w.extractLsb' 10 1 = 1#1))) ∧
  (∃ e, decode 0x0000#16 = .error e) ∧
  ∀ (s : State) (w : Word) (k : Nat) (rest : List HostEvent) (op : HostOp),
    (op = .write 0 w ∨ op = .post 0 w) → s.host = ⟨op, k⟩ :: rest → s.busy = false → s.fault = false →
    (∃ e, decode w = .error e) →
    step s = .next { s with host := rest, lastCmd := w, fault := true, err := .illegalCmd, seq := Seq.idle }

/-- The words of the commands (R74 to R80), as sums of their fields. -/
def Obligations.EncodingsAreTheWordsOfTheSpec : Prop :=
  encode .start = 0x2000#16 ∧ encode .stop = 0x4000#16 ∧
  (∀ (v : Byte) (n : Nat) (a w : Bool), 1 ≤ n → n ≤ 8 → encode (.send v n a w) =
    0x6000#16 ||| bitAt w 12 ||| bitAt a 11 ||| BitVec.ofNat 16 (n - 1) <<< 8 ||| v.zeroExtend 16) ∧
  (∀ a, encode (.rack a) = 0x8000#16 ||| bitAt a 11) ∧
  (∀ da : BitVec 7, encode (.store da) = 0xA000#16 ||| da.zeroExtend 16) ∧
  (∀ d, encode (.ldir .scl d) = 0xC000#16 ||| bitAt d.bit 9 ∧ encode (.ldir .sda d) = 0xC400#16 ||| bitAt d.bit 9) ∧
  (∀ v, encode (.lwr .scl v) = 0xC800#16 ||| bitAt v 9 ∧ encode (.lwr .sda v) = 0xCC00#16 ||| bitAt v 9) ∧
  encode (.lrd .scl) = 0xD000#16 ∧ encode (.lrd .sda) = 0xD400#16 ∧
  encode (.lmux .i2c) = 0xD800#16 ∧ encode (.lmux .gpio) = 0xDA00#16 ∧
  ∀ c : BitVec 12, encode (.waitu c) = 0xE000#16 ||| c.zeroExtend 16 ∧
    encode (.waitm c) = 0xF000#16 ||| c.zeroExtend 16

/-- Words written out from R71, R79 and R94, one of each command, decode to the commands they stand for. -/
def Obligations.WrittenWordsDecode : Prop :=
  [0x2000#16, 0x4000#16, 0x6202#16, 0x7FB0#16, 0x8800#16, 0xA058#16, 0xC400#16, 0xCA00#16, 0xD400#16, 0xDA00#16,
    0xE005#16, 0xF00A#16].map decode =
  [.ok .start, .ok .stop, .ok (.send 0x02#8 3 false false), .ok (.send 0xB0#8 8 true true), .ok (.rack true),
    .ok (.store 0x58#7), .ok (.ldir .sda .input), .ok (.lwr .scl true), .ok (.lrd .sda), .ok (.lmux .gpio),
    .ok (.waitu 5#12), .ok (.waitm 10#12)]

/-! ## The command port (20_memory.md, 60_exceptions.md, 70_reset_and_hazards.md) -/

/-- A step runs the decoded command (R55): an idle block without a fault takes the word into LASTCMD, sets BUSY and
executes the command; `withFetchWord` places such a word in any state. -/
def Obligations.StepRunsWrittenCommand : Prop :=
  (∀ (s : State) (w : Word) (k : Nat) (rest : List HostEvent) (i : Instr),
    s.host = ⟨.write 0 w, k⟩ :: rest → s.busy = false → s.fault = false → decode w = .ok i →
    step s = exec i { s with host := rest, lastCmd := w, busy := true }) ∧
  ∀ (s : State) (w : Word) (i : Instr), decode w = .ok i →
    step (s.withFetchWord 16 w.toNat) =
      exec i { s with lastCmd := w, busy := true, seq := Seq.idle, fault := false, err := .none }

/-- Every command ends (R31, R55): its execution answers a state with BUSY = 0 and the sequencer idle, and has written
neither LASTCMD nor anything outside the block but the environment's answers. -/
def Obligations.EveryCommandEnds : Prop :=
  ∀ (i : Instr) (s : State), ∃ t, exec i s = .next t ∧ t.busy = false ∧ t.seq = Seq.idle ∧ t.lastCmd = s.lastCmd ∧
    t.params = s.params ∧ t.host = s.host ∧ t.readData = s.readData

/-- R210: while FAULT = 1 and BUSY = 0 a write to CMD is discarded: the block's state does not change. -/
def Obligations.CommandDiscardedAfterFault : Prop :=
  ∀ (s : State) (w : Word) (k : Nat) (rest : List HostEvent) (op : HostOp),
    (op = .write 0 w ∨ op = .post 0 w) → s.host = ⟨op, k⟩ :: rest → s.fault = true → s.busy = false →
    step s = .next { s with host := rest }

/-- R56: a write to CMD while BUSY = 1 is held: LASTCMD is not written, and once BUSY = 0 that write is the next thing that
happens, by R55. That the held write keeps the head of the host's agenda, with later events behind it, while each step runs
one statement of the command in progress is the model's choice (log 28, log 1, log 2). -/
def Obligations.CommandHeldWhileBusy : Prop :=
  ∀ (s : State) (w : Word) (k : Nat) (rest : List HostEvent),
    (∀ op, (op = .write 0 w ∨ op = .post 0 w) → s.host = ⟨op, k⟩ :: rest → s.busy = true →
      step s = .next (tick { s with host := ⟨op, k - 1⟩ :: rest }) ∧
        ∃ t, step s = .next t ∧ t.host = ⟨op, k - 1⟩ :: rest ∧ t.lastCmd = s.lastCmd) ∧
    (s.host = ⟨.write 0 w, k⟩ :: rest → s.busy = false → step s = hostWriteCmd w { s with host := rest }) ∧
    (s.host = ⟨.post 0 w, k⟩ :: rest → s.busy = false → step s = .next (hostPostCmd w { s with host := rest }))

/-- A write to CMD that the host does not wait for (R55, R31): the command is accepted, BUSY is 1, and the sequencer stands
before its first statement. -/
def Obligations.PostedCommandIsAccepted : Prop :=
  ∀ (s : State) (w : Word) (k : Nat) (rest : List HostEvent) (i : Instr),
    s.host = ⟨.post 0 w, k⟩ :: rest → s.busy = false → s.fault = false → decode w = .ok i →
    step s = .next { s with host := rest, lastCmd := w, busy := true, seq := { Seq.idle with code := body i } }

/-- The two ways of running a command agree (R31, R38, R61): from the acceptance of a command the host does not wait for,
some number of the machine's steps, each one statement of the sequencer, ends in the very state that executing the
command as a whole answers. That there are these two ways is the model's choice (log 1). -/
def Obligations.SequencerStepsAgreeWithExec : Prop :=
  ∀ (i : Instr) (s : State), s.host = [] →
    ∃ n t, exec i s = .next t ∧
      Host.Core.run core n { s with busy := true, seq := { Seq.idle with code := body i } } = .next t

/-- R240, R241: when reset comes, in the middle of a command or not, every field of the block takes its value of R40, a
new trace begins, and the pins belong to the I2C peripheral. That the parameters, the environment and the host are kept is
the model's choice (log 7). -/
def Obligations.ResetGivesTheResetState : Prop :=
  ∀ (s : State) (k : Nat) (rest : List HostEvent), s.host = ⟨.reset, k⟩ :: rest → (s.busy = false ∨ k = 0) →
    ∃ t, step s = .next t ∧ t.mux = .i2c ∧ t.scl = ⟨.output, true⟩ ∧ t.sda = ⟨.output, true⟩ ∧ t.res = false ∧
      t.timedOut = false ∧ t.busy = false ∧ t.fault = false ∧ t.err = .none ∧ t.lastCmd = 0x0000#16 ∧
      t.seq = Seq.idle ∧ t.t = 0 ∧ t.trace = [] ∧ (∀ l, t.pin l = .peripheral) ∧
      t.params = s.params ∧ t.env = s.env ∧ t.host = rest ∧ t.readData = s.readData

/-- R52: a read of STATUS while BUSY = 0 returns RES, TO, BUSY, FAULT, ERR and MUX in their places and zeros elsewhere, and
changes none of them; neither does a write to it; after reset it reads 0x0000. -/
def Obligations.StatusReadShowsTheFields : Prop :=
  (∀ (s : State) (k : Nat) (rest : List HostEvent), s.host = ⟨.read 1, k⟩ :: rest → s.busy = false →
    ∃ v : Word, step s = .next { s with host := rest, readData := some v } ∧
      v.getLsbD 0 = s.res ∧ v.getLsbD 1 = s.timedOut ∧ v.getLsbD 2 = s.busy ∧ v.getLsbD 3 = s.fault ∧
      v.extractLsb' 4 2 = (match s.err with
        | .none => 0#2
        | .illegalCmd => 1#2
        | .modeErr => 2#2
        | .pinReconf => 3#2) ∧
      v.getLsbD 6 = (match s.mux with
        | .gpio => true
        | .i2c => false) ∧
      v.extractLsb' 7 9 = 0#9) ∧
  (∀ (s : State) (k : Nat) (w : Word) (rest : List HostEvent) (op : HostOp), (op = .write 1 w ∨ op = .post 1 w) →
    s.host = ⟨op, k⟩ :: rest → (s.busy = false ∨ k = 0) → step s = .next { s with host := rest }) ∧
  ∀ (k : Nat) (rest : List HostEvent),
    step { State.reset with host := ⟨.read 1, k⟩ :: rest } =
      .next { State.reset with host := rest, readData := some 0x0000#16 }

/-- R54: a read of LINES while BUSY = 0 returns the latches and directions of both lines and zeros elsewhere; after reset it
reads 0x000F. -/
def Obligations.LinesReadShowsTheLines : Prop :=
  (∀ (s : State) (k : Nat) (rest : List HostEvent), s.host = ⟨.read 2, k⟩ :: rest → s.busy = false →
    ∃ v : Word, step s = .next { s with host := rest, readData := some v } ∧
      v.getLsbD 0 = s.scl.lat ∧ (v.getLsbD 1 = true ↔ s.scl.dir = .output) ∧
      v.getLsbD 2 = s.sda.lat ∧ (v.getLsbD 3 = true ↔ s.sda.dir = .output) ∧ v.extractLsb' 4 12 = 0#12) ∧
  ∀ (k : Nat) (rest : List HostEvent),
    step { State.reset with host := ⟨.read 2, k⟩ :: rest } =
      .next { State.reset with host := rest, readData := some 0x000F#16 }

/-- R51, R57, R37: a read of LASTCMD while BUSY = 0 returns the last command word accepted, and changes nothing of the
block; after reset it reads 0x0000. -/
def Obligations.LastCmdReadShowsTheWord : Prop :=
  (∀ (s : State) (k : Nat) (rest : List HostEvent), s.host = ⟨.read 3, k⟩ :: rest → s.busy = false →
    step s = .next { s with host := rest, readData := some s.lastCmd }) ∧
  ∀ (k : Nat) (rest : List HostEvent),
    step { State.reset with host := ⟨.read 3, k⟩ :: rest } =
      .next { State.reset with host := rest, readData := some 0x0000#16 }

/-- R57: a read while BUSY = 1 has no side effect on the block; STATUS shows BUSY = 1, FAULT and ERR as they stand; LASTCMD
reads as it stands. That LASTCMD reads so while busy is the model's reading of R57 (log 11). -/
def Obligations.ReadsWhileBusy : Prop :=
  ∀ (s : State) (off : Nat) (rest : List HostEvent), s.host = ⟨.read off, 0⟩ :: rest → s.busy = true →
    ∃ (v : Word) (e : Env), step s = .next { s with host := rest, readData := some v, env := e } ∧
      (off = 1 → v.getLsbD 2 = true ∧ v.getLsbD 3 = s.fault ∧ v.extractLsb' 4 2 = s.err.code ∧
        v.extractLsb' 7 9 = 0#9) ∧
      (off = 3 → v = s.lastCmd) ∧ (off = 0 ∨ 3 < off → v = 0x0000#16)

/-- R59: a write to STATUS, LINES, LASTCMD or above changes nothing of the block; CMD and every offset above 3 read
0x0000, while a command runs too. -/
def Obligations.OtherRegistersIgnoreWritesAndReadZero : Prop :=
  ∀ (s : State) (off k : Nat) (w : Word) (rest : List HostEvent), (s.busy = false ∨ k = 0) →
    (∀ op, (op = .write off w ∨ op = .post off w) → off ≠ 0 → s.host = ⟨op, k⟩ :: rest →
      step s = .next { s with host := rest }) ∧
    ((off = 0 ∨ 3 < off) → s.host = ⟨.read off, k⟩ :: rest →
      ∃ e, (s.busy = false → e = s.env) ∧
        step s = .next { s with host := rest, readData := some 0x0000#16, env := e })

/-- R58: a partial-width or unaligned access has no meaning and is refused by name. -/
def Obligations.PartialAccessIsRefused : Prop :=
  ∀ (s : State) (k : Nat) (rest : List HostEvent), s.host = ⟨.partialAccess, k⟩ :: rest → (s.busy = false ∨ k = 0) →
    step s = .refused .partialAccess

/-! ## The whole machine -/

/-- The machine's invariant holds after reset (R40). -/
def Obligations.ResetMeetsTheInvariant : Prop :=
  State.reset.Inv

/-- Every step keeps the invariant (R31, R34, R35, R36, R205): ERR is NONE exactly when FAULT = 0, a fault has ended its
command, an idle block holds no hidden state, and the trace is in the order of time. -/
def Obligations.StepKeepsTheInvariant : Prop :=
  ∀ s t : State, s.Inv → step s = .next t → t.Inv

/-- R211, R36: only reset clears FAULT and ERR, and ERR keeps the first fault's code. -/
def Obligations.OnlyResetClearsAFault : Prop :=
  ∀ s t : State, s.fault = true → step s = .next t →
    (∃ k rest, s.host = ⟨.reset, k⟩ :: rest ∧ (s.busy = false ∨ k = 0)) ∨ (t.fault = true ∧ t.err = s.err)

/-- R210, R209: in a state that meets the invariant, while FAULT = 1 no step but a reset changes the block. -/
def Obligations.FaultedBlockStandsStill : Prop :=
  ∀ s t : State, s.Inv → s.fault = true → step s = .next t →
    (∃ k rest, s.host = ⟨.reset, k⟩ :: rest ∧ (s.busy = false ∨ k = 0)) ∨ t = { s with host := t.host, readData := t.readData }

/-- R9, R10, R23: no step writes the configuration. -/
def Obligations.ParametersAreNeverWritten : Prop :=
  ∀ s t : State, step s = .next t → t.params = s.params

/-- R61, R35: a step that is not a reset only adds to the trace, in the order of time, each event lasting its lower bound. -/
def Obligations.TraceOnlyGrows : Prop :=
  ∀ s t : State, step s = .next t →
    (∃ k rest, s.host = ⟨.reset, k⟩ :: rest ∧ (s.busy = false ∨ k = 0)) ∨ ∃ evs, Emits s t evs

/-- R37: LASTCMD changes only by reset, or to the word of a command that the block accepts, with FAULT = 0 and BUSY = 0. -/
def Obligations.LastCmdIsTheAcceptedWord : Prop :=
  ∀ s t : State, step s = .next t → t.lastCmd ≠ s.lastCmd →
    (∃ k rest, s.host = ⟨.reset, k⟩ :: rest ∧ (s.busy = false ∨ k = 0)) ∨
      (s.fault = false ∧ s.busy = false ∧
        ∃ k rest, s.host = ⟨.write 0 t.lastCmd, k⟩ :: rest ∨ s.host = ⟨.post 0 t.lastCmd, k⟩ :: rest)

/-- R41: both lines stay OUT from command to command, whatever the command, but for LDIR to IN and a command that ends with
a fault. -/
def Obligations.LinesStayOutBetweenCommands : Prop :=
  ∀ (i : Instr) (s t : State), s.linesOut → (∀ l, i ≠ .ldir l .input) → exec i s = .next t → t.fault = false →
    t.linesOut

/-- What the host does next, the word in LASTCMD and what the host last read have no influence on a command (R6, R63). -/
def Obligations.CommandsIgnoreTheHost : Prop :=
  ∀ (i : Instr) (s t : State) (h : List HostEvent) (d : Option Word) (w : Word), exec i s = .next t →
    exec i { s with host := h, readData := d, lastCmd := w } = .next { t with host := h, readData := d, lastCmd := w }

/-! ## Faults (60_exceptions.md) -/

/-- R203, R100, R207: a line command outside GPIO mode, or a signal command outside GPIO mode or with a line IN, ends with
MODE_ERR before its first primitive: nothing changes but FAULT, ERR and BUSY, and ERR only if it held no fault. -/
def Obligations.ModeErrorChangesNothingElse : Prop :=
  ∀ (i : Instr) (s : State), ¬ ready i s →
    exec i s = .next { s with
      fault := true, err := if s.fault then s.err else .modeErr, busy := false, seq := Seq.idle }

/-- R208, R182: a command whose mode check passes raises nothing but PIN_RECONF, and that only LMUX and STORE do; with
MUX_CAN_FAIL = false none raises anything (R30). -/
def Obligations.ReadyCommandsRaiseOnlyPinReconf : Prop :=
  ∀ (i : Instr) (s t : State), ready i s → s.fault = false → exec i s = .next t →
    (t.fault = false ∧ t.err = s.err) ∨
      (t.fault = true ∧ t.err = .pinReconf ∧ s.params.muxCanFail = true ∧
        ((∃ m, i = .lmux m) ∨ ∃ da, i = .store da))

/-! ## Line, multiplexer and timing commands (40_line.md) -/

/-- R101, R28, R29, R107: LDIR in GPIO mode sets the line's direction; the latch is kept, or, when the direction becomes OUT
under LATCH_ON_DIR_OUT = DRAW, a bit of the next undefined value where one is listed (log 3); the pin is released or driven
to the latch; the other line and everything else is unchanged; one event `D(l, d)`. In a state that fails its mode check it
raises MODE_ERR. Its word as in R79. -/
def Obligations.LdirSetsTheDirection : Prop :=
  ∀ (l : Line) (d : Dir) (s : State),
    (s.mux = .gpio →
      ∃ t, exec (.ldir l d) s = .next t ∧ (t.line l).dir = d ∧
        (d = .input ∨ s.params.latchOnOut = .retain → (t.line l).lat = (s.line l).lat) ∧
        (d = .output → s.params.latchOnOut = .draw →
          ∀ v vs, s.env.values = v :: vs → (t.line l).lat = v.getLsbD 0) ∧
        (d = .input → t.pin l = .released) ∧ (d = .output → t.pin l = .driven (t.line l).lat) ∧
        (∀ l', l' ≠ l → t.line l' = s.line l') ∧ t.mux = .gpio ∧ t.res = s.res ∧ t.timedOut = s.timedOut ∧
        t.idle ∧ SameRest s t ∧ Emits s t [.dir l d]) ∧
    (¬ ready (.ldir l d) s → exec (.ldir l d) s = .next (faulted s .modeErr)) ∧
    encode (.ldir l d) = 0xC000#16 ||| bitAt l.bit 10 ||| bitAt d.bit 9

/-- R102: LWR in GPIO mode sets the line's latch, whatever its direction; the rest is unchanged; one event `W(l, v)`.
In a state that fails its mode check it raises MODE_ERR. Its word as in R79. -/
def Obligations.LwrSetsTheLatch : Prop :=
  ∀ (l : Line) (v : Bool) (s : State),
    (s.mux = .gpio →
      ∃ t, exec (.lwr l v) s = .next t ∧ t.line l = { dir := (s.line l).dir, lat := v } ∧
        ((s.line l).dir = .output → t.pin l = .driven v) ∧ ((s.line l).dir = .input → t.pin l = .released) ∧
        (∀ l', l' ≠ l → t.line l' = s.line l') ∧ t.mux = .gpio ∧ t.res = s.res ∧ t.timedOut = s.timedOut ∧
        t.idle ∧ SameRest s t ∧ Emits s t [.write l v]) ∧
    (¬ ready (.lwr l v) s → exec (.lwr l v) s = .next (faulted s .modeErr)) ∧
    encode (.lwr l v) = 0xC800#16 ||| bitAt l.bit 10 ||| bitAt v 9

/-- R103: LRD in GPIO mode returns in RES the latch of an OUT line or the environment's answer for an IN line, clears TO,
and changes no line; one event `R(l, r)`.
In a state that fails its mode check it raises MODE_ERR. Its word as in R79. -/
def Obligations.LrdReturnsTheLevel : Prop :=
  ∀ (l : Line) (s : State),
    (s.mux = .gpio →
      ∃ t, exec (.lrd l) s = .next t ∧
        ((s.line l).dir = .output → t.res = (s.line l).lat) ∧
        ((s.line l).dir = .input → ∀ b bs, s.env.answers = b :: bs → t.res = b) ∧ t.timedOut = false ∧
        t.scl = s.scl ∧ t.sda = s.sda ∧ t.mux = .gpio ∧ t.idle ∧ SameRest s t ∧ Emits s t [.read l t.res]) ∧
    (¬ ready (.lrd l) s → exec (.lrd l) s = .next (faulted s .modeErr)) ∧
    encode (.lrd l) = 0xD000#16 ||| bitAt l.bit 10

/-- R104, R28, R30: LMUX whose switch succeeds, from either setting: MUX takes the setting; to GPIO both lines become OUT,
with the latches kept under RETAIN and, under DRAW, a bit of each of the next two undefined values where they are listed, SCL
first (log 3); to I2C both line states stay; the pins follow (R29, R107). -/
def Obligations.LmuxSwitchesThePins : Prop :=
  ∀ (m : Mux) (s : State), s.nextSwitch = true →
    ∃ t, exec (.lmux m) s = .next t ∧ t.mux = m ∧
      (m = .i2c → t.scl = s.scl ∧ t.sda = s.sda ∧ ∀ l, t.pin l = .peripheral) ∧
      (m = .gpio → t.linesOut ∧ (∀ l, t.pin l = .driven (t.line l).lat) ∧
        (s.params.latchOnOut = .retain → t.scl.lat = s.scl.lat ∧ t.sda.lat = s.sda.lat) ∧
        (s.params.latchOnOut = .draw →
          ∀ v w vs, s.env.values = v :: w :: vs → t.scl.lat = v.getLsbD 0 ∧ t.sda.lat = w.getLsbD 0)) ∧
      t.res = s.res ∧ t.timedOut = s.timedOut ∧ t.idle ∧ SameRest s t ∧ Emits s t [.mux m true]

/-- R204, R205, R30, R107: LMUX whose switch fails ends with PIN_RECONF after the event `M(m, false)`; the result bits keep
their values; MUX and both line states are the next undefined value where one is listed (log 3), and every pin state is
such a value. -/
def Obligations.LmuxFailureRaisesPinReconf : Prop :=
  (∀ (m : Mux) (s : State), s.nextSwitch = false →
    ∃ t, exec (.lmux m) s = .next t ∧ t.fault = true ∧ t.err = (if s.fault then s.err else .pinReconf) ∧
      (∀ v vs, s.env.values = v :: vs → pinsDrawnFrom v t) ∧
      t.res = s.res ∧ t.timedOut = s.timedOut ∧ t.idle ∧ t.lastCmd = s.lastCmd ∧ t.params = s.params ∧
      t.host = s.host ∧ t.readData = s.readData ∧ Emits s t [.mux m false]) ∧
  ∀ (m : Mux) (scl sda : LineState), ∃ v, ∀ t, pinsDrawnFrom v t ↔ t.mux = m ∧ t.scl = scl ∧ t.sda = sda

/-- R105, R106: WAITU and WAITM in any state wait at least C microseconds or C milliseconds and change nothing else. -/
def Obligations.WaitsTakeAtLeastTheirTime : Prop :=
  ∀ (c : BitVec 12) (s : State),
    (∃ t, exec (.waitu c) s = .next t ∧ s.t + c.toNat ≤ t.t ∧ t.mux = s.mux ∧ t.scl = s.scl ∧ t.sda = s.sda ∧
      t.res = s.res ∧ t.timedOut = s.timedOut ∧ t.idle ∧ SameRest s t ∧ Emits s t [.delay c.toNat]) ∧
    (∃ t, exec (.waitm c) s = .next t ∧ s.t + 1000 * c.toNat ≤ t.t ∧ t.mux = s.mux ∧ t.scl = s.scl ∧ t.sda = s.sda ∧
      t.res = s.res ∧ t.timedOut = s.timedOut ∧ t.idle ∧ SameRest s t ∧ Emits s t [.delay (1000 * c.toNat)]) ∧
    encode (.waitu c) = 0xE000#16 ||| c.zeroExtend 16 ∧ encode (.waitm c) = 0xF000#16 ||| c.zeroExtend 16

/-! ## The signal layer (41_signal.md) -/

/-- R130: START with both lines driven: its seven events in order, both lines LOW at the end, the rest unchanged.
In a state that fails its mode check it raises MODE_ERR. Its word as in R74. -/
def Obligations.StartMakesTheStartSequence : Prop :=
  ∀ s : State,
    (s.gpioOut →
      ∃ t, exec .start s = .next t ∧ t.scl = ⟨.output, false⟩ ∧ t.sda = ⟨.output, false⟩ ∧ t.mux = .gpio ∧
        t.res = s.res ∧ t.timedOut = s.timedOut ∧ t.idle ∧ SameRest s t ∧
        Emits s t [.write .scl true, .write .sda true, .delay 2, .write .sda false, .delay 3, .write .scl false, .delay 5]) ∧
    (¬ ready .start s → exec .start s = .next (faulted s .modeErr)) ∧
    encode .start = 0x2000#16

/-- R131: STOP with both lines driven: its six events in order, both lines HIGH at the end, the rest unchanged.
In a state that fails its mode check it raises MODE_ERR. Its word as in R75. -/
def Obligations.StopMakesTheStopSequence : Prop :=
  ∀ s : State,
    (s.gpioOut →
      ∃ t, exec .stop s = .next t ∧ t.scl = ⟨.output, true⟩ ∧ t.sda = ⟨.output, true⟩ ∧ t.mux = .gpio ∧
        t.res = s.res ∧ t.timedOut = s.timedOut ∧ t.idle ∧ SameRest s t ∧
        Emits s t [.write .sda false, .delay 2, .write .scl true, .delay 5, .write .sda true, .delay 5]) ∧
    (¬ ready .stop s → exec .stop s = .next (faulted s .modeErr)) ∧
    encode .stop = 0x4000#16

/-- R132, R133: SEND with W = 0: the bit loop's N clock periods, the bits of `FrameBit`, then SDA low and SCL high; RES is A
and TO 0, whatever the line does. -/
def Obligations.SendWithoutAck : Prop :=
  ∀ (v : Byte) (n : Nat) (a : Bool) (s : State), 1 ≤ n → n ≤ 8 → s.gpioOut →
    ∃ t, exec (.send v n a false) s = .next t ∧ t.scl = ⟨.output, true⟩ ∧ t.sda = ⟨.output, false⟩ ∧ t.mux = .gpio ∧
      t.res = a ∧ t.timedOut = false ∧ t.idle ∧ SameRest s t ∧
      Emits s t (((List.range n).flatMap fun i =>
        [.write .sda (match s.params.frameBits with
            | .top => v.getLsbD (7 - i)
            | .low => v.getLsbD (n - 1 - i)),
          .delay 2, .write .scl true, .delay 5, .write .scl false, .delay 3]) ++
        [.write .sda false, .write .scl true])

/-- R132, R133, R134: SEND with W = 1: the bit loop, then an ack cycle of 1 to 250 reads that are the environment's answers,
ended early only by a match; RES is the last read, TO whether it missed; SCL ends LOW, SDA OUT again. -/
def Obligations.SendWithAck : Prop :=
  ∀ (v : Byte) (n : Nat) (a : Bool) (s : State), 1 ≤ n → n ≤ 8 → s.gpioOut →
    ∃ t rs, exec (.send v n a true) s = .next t ∧ ackReads a rs ∧ answeredBy rs s.env.answers ∧
      rs.getLast? = some t.res ∧ t.timedOut = (t.res != a) ∧
      t.scl = ⟨.output, false⟩ ∧ t.sda.dir = .output ∧ t.mux = .gpio ∧
      (s.params.latchOnOut = .retain → t.sda.lat = frameBit s.params.frameBits v n (n - 1)) ∧
      (s.params.latchOnOut = .draw → ∀ x xs, s.env.values = x :: xs → t.sda.lat = x.getLsbD 0) ∧
      t.idle ∧ SameRest s t ∧
      Emits s t (frameEvents s.params.frameBits v n ++ ackEvents a rs)

/-- R134, R135: RACK is the ack cycle alone: the same reads and result, SCL LOW and SDA OUT with its latch kept under
RETAIN.
In a state that fails its mode check it raises MODE_ERR. Its word as in R77. -/
def Obligations.RackIsTheAckCycle : Prop :=
  ∀ (a : Bool) (s : State),
    (s.gpioOut →
      ∃ t rs, exec (.rack a) s = .next t ∧ ackReads a rs ∧ answeredBy rs s.env.answers ∧
        rs.getLast? = some t.res ∧ t.timedOut = (t.res != a) ∧
        t.scl = ⟨.output, false⟩ ∧ t.sda.dir = .output ∧ t.mux = .gpio ∧
        (s.params.latchOnOut = .retain → t.sda.lat = s.sda.lat) ∧
        (s.params.latchOnOut = .draw → ∀ x xs, s.env.values = x :: xs → t.sda.lat = x.getLsbD 0) ∧
        t.idle ∧ SameRest s t ∧ Emits s t (ackEvents a rs)) ∧
    (¬ ready (.rack a) s → exec (.rack a) s = .next (faulted s .modeErr)) ∧
    encode (.rack a) = 0x8000#16 ||| bitAt a 11

/-- R137: START followed at once by STOP leaves both lines HIGH, from any state in which both are driven. -/
def Obligations.StartThenStopLeavesLinesHigh : Prop :=
  ∀ s : State, s.gpioOut →
    ∃ t, execAll [.start, .stop] s = .next t ∧ t.scl = ⟨.output, true⟩ ∧ t.sda = ⟨.output, true⟩ ∧
      t.fault = s.fault ∧ t.res = s.res ∧ t.timedOut = s.timedOut

/-- R136: SEND makes one clock rise for each of its N bits and one more in its ending, and one fall for each bit and one
more only in the ack cycle. -/
def Obligations.SendMakesItsClockPulses : Prop :=
  ∀ (v : Byte) (n : Nat) (a w : Bool) (s : State), 1 ≤ n → n ≤ 8 → s.gpioOut →
    ∃ t evs, exec (.send v n a w) s = .next t ∧ Emits s t evs ∧ evs.count (.write .scl true) = n + 1 ∧
      evs.count (.write .scl false) = n + (if w then 1 else 0)

/-- R138: the conditions the signal commands make on the bus: START makes a start condition, after a stop condition if SDA
was LOW; STOP makes a stop condition, after a start condition if the bus was idle; SEND and RACK entered with SCL LOW make
none; their ack cycle reads SDA only while SCL is high. What the conditions are is general knowledge (GK1, log 23). -/
def Obligations.SignalCommandsMakeTheirBusConditions : Prop :=
  ∀ s t : State, s.gpioOut →
    (exec .start s = .next t → ∃ evs, Emits s t evs ∧
      busConditions s.scl.lat s.sda.lat evs = if s.sda.lat then [.start] else [.stop, .start]) ∧
    (exec .stop s = .next t → ∃ evs, Emits s t evs ∧
      busConditions s.scl.lat s.sda.lat evs = if s.scl.lat && s.sda.lat then [.start, .stop] else [.stop]) ∧
    (∀ v n a w, 1 ≤ n → n ≤ 8 → exec (.send v n a w) s = .next t → ∃ evs, Emits s t evs ∧
      readsWhileSclHigh s.scl.lat evs = true ∧
      (s.scl.lat = false → busConditions s.scl.lat s.sda.lat evs = [])) ∧
    ∀ a, exec (.rack a) s = .next t → ∃ evs, Emits s t evs ∧ readsWhileSclHigh s.scl.lat evs = true ∧
      (s.scl.lat = false → busConditions s.scl.lat s.sda.lat evs = [])

/-- R139: the least times of SEND with W = 1 and of RACK, by the number of reads and by whether the cycle timed out. -/
def Obligations.AckCyclesTakeAtLeastTheirTime : Prop :=
  ∀ (i : Instr) (base : Nat) (s : State), s.gpioOut →
    (∃ a, i = .rack a ∧ base = 0 ∨ ∃ v n, i = .send v n a true ∧ 1 ≤ n ∧ n ≤ 8 ∧ base = 10 * n) →
    ∃ t evs, exec i s = .next t ∧ Emits s t evs ∧ 1 ≤ evs.countP Event.isRead ∧
      (t.timedOut = false → s.t + base + 10 + (evs.countP Event.isRead - 1) ≤ t.t) ∧
      (t.timedOut = true → evs.countP Event.isRead = 250 ∧ s.t + base + 260 ≤ t.t)

/-- R261: the least time of every command that ends without a fault. -/
def Obligations.CommandsTakeAtLeastTheirTime : Prop :=
  ∀ (i : Instr) (s t : State), i.wf = true → exec i s = .next t → t.fault = false →
    s.t + minDuration i ≤ t.t

/-! ## The store sequence (42_store.md) -/

/-- R172 to R180, R186: STORE whose two switches succeed, from any state whatever the acknowledgments: the eight steps on
the trace, the pins back with the I2C peripheral, both lines OUT and HIGH, RES and TO cleared, the rest unchanged. -/
def Obligations.StoreRunsTheWholeSequence : Prop :=
  ∀ (da : BitVec 7) (s : State), s.bothSwitchesSucceed →
    ∃ t evs, exec (.store da) s = .next t ∧ t.mux = .i2c ∧ t.scl = ⟨.output, true⟩ ∧ t.sda = ⟨.output, true⟩ ∧
      t.res = false ∧ t.timedOut = false ∧ t.idle ∧ SameRest s t ∧ Emits s t evs ∧
      (evs.filter fun e => !isPoll e) = storeSignal s.params.frameBits da ++ [.mux .i2c true]

/-- R181, R172: STORE whose switch to GPIO fails attempts the switch back, runs no other step and ends with PIN_RECONF; RES
and TO keep their values; whatever the attempt's outcome, MUX and both line states are the undefined value drawn after it,
where it is listed: the second, or the third if the attempt, failing, has drawn one too (log 3, log 9). -/
def Obligations.StoreStepOneFailure : Prop :=
  ∀ (da : BitVec 7) (s : State), s.nextSwitch = false →
    ∃ t ok, exec (.store da) s = .next t ∧ t.fault = true ∧ t.err = (if s.fault then s.err else .pinReconf) ∧
      (∀ b, s.env.switches[1]? = some b → ok = b) ∧
      (∀ v, s.env.values[if ok then 1 else 2]? = some v → pinsDrawnFrom v t) ∧
      t.res = s.res ∧ t.timedOut = s.timedOut ∧ t.idle ∧ t.lastCmd = s.lastCmd ∧ t.params = s.params ∧
      t.host = s.host ∧ t.readData = s.readData ∧ Emits s t [.mux .gpio false, .mux .i2c ok]

/-- R181, R39: STORE whose switch back to I2C fails has run steps 1 to 7 and ends with PIN_RECONF; RES and TO are the
last internal SEND's, that is RES is the level of the last read on the trace, and TO whether it missed the expected
level 0; MUX and both line states are the undefined value drawn then, where it is listed: the first under RETAIN, the
sixteenth under DRAW, after the 15 changes of direction to OUT (log 3). -/
def Obligations.StoreStepEightFailure : Prop :=
  ∀ (da : BitVec 7) (s : State), s.secondSwitchFails →
    ∃ t evs, exec (.store da) s = .next t ∧ t.fault = true ∧ t.err = (if s.fault then s.err else .pinReconf) ∧
      (∀ v, s.env.values[if s.params.latchOnOut = .retain then 0 else 15]? = some v → pinsDrawnFrom v t) ∧
      t.timedOut = t.res ∧ t.idle ∧ t.lastCmd = s.lastCmd ∧ t.params = s.params ∧ t.host = s.host ∧
      t.readData = s.readData ∧ Emits s t evs ∧
      (evs.filter Event.isRead).getLast? = some (.read .sda t.res) ∧
      (evs.filter fun e => !isPoll e) = storeSignal s.params.frameBits da ++ [.mux .i2c false]

/-- R172, R181, R182: from every state STORE ends in one of three ways: its first switch fails and only the restoration
attempt follows; or steps 1 to 7 run and its last switch fails; or all eight steps run. The first two set FAULT, the third
raises nothing. -/
def Obligations.StoreEndsInOneOfThreeWays : Prop :=
  ∀ (da : BitVec 7) (s : State), ∃ t evs, exec (.store da) s = .next t ∧ t.idle ∧ Emits s t evs ∧
    ((s.nextSwitch = false ∧ t.fault = true ∧ ∃ ok, evs = [.mux .gpio false, .mux .i2c ok]) ∨
      (s.nextSwitch = true ∧ s.params.muxCanFail = true ∧ t.fault = true ∧
        (evs.filter fun e => !isPoll e) = storeSignal s.params.frameBits da ++ [.mux .i2c false]) ∨
      (s.nextSwitch = true ∧ t.fault = s.fault ∧ t.err = s.err ∧ t.mux = .i2c ∧
        (evs.filter fun e => !isPoll e) = storeSignal s.params.frameBits da ++ [.mux .i2c true]))

/-- R179: no acknowledgment changes what STORE puts on the wire: from any two states in which its switches succeed, whatever
the environment answers, the trace is the same but for the reads and poll waits. -/
def Obligations.StoreIgnoresAcknowledgments : Prop :=
  ∀ (da : BitVec 7) (s s' t t' : State), s.bothSwitchesSucceed → s'.bothSwitchesSucceed →
    s'.params.frameBits = s.params.frameBits →
    exec (.store da) s = .next t → exec (.store da) s' = .next t' →
    ∃ evs evs', Emits s t evs ∧ Emits s' t' evs' ∧
      (evs.filter fun e => !isPoll e) = evs'.filter fun e => !isPoll e

/-- STORE is the store sequence by hand (R172; program P3 of 95_test_vectors.md): where the hand-made sequence ends without
a fault, STORE ends in the same state, trace and times included, but for RES and TO, which it clears. -/
def Obligations.StoreEqualsTheSequenceByHand : Prop :=
  ∀ (da : BitVec 7) (s t : State), execAll (storeByHand da) s = .next t → t.fault = false →
    exec (.store da) s = .next { t with res := false, timedOut := false }

/-- R252: a sequence of commands that keeps the host's duty to restore the pins, and raises nothing, ends with the pins with
the I2C peripheral. -/
def Obligations.RestoringSequencesEndInI2c : Prop :=
  ∀ (is : List Instr) (s t : State), restoresPins s.mux is = true → execAll is s = .next t → t.fault = false →
    t.mux = .i2c ∧ ∀ l, t.pin l = .peripheral

/-- R250, R251, R252, R57: a read of STATUS shows BUSY = 0 exactly when no command is in execution; it gives the host a
result exactly then, the block's RES and TO, and leave to use the I2C peripheral exactly when MUX = I2C as well and no
PIN_RECONF has left the pins undefined, MUX with them; the read changes nothing of the block. That these three are all the
leave needs is the model's reading (log 30). -/
def Obligations.SeeingIdleMeansTheResultStands : Prop :=
  ∀ (s t : State) (k : Nat) (rest : List HostEvent) (v : Word), s.host = ⟨.read 1, k⟩ :: rest →
    (s.busy = false ∨ k = 0) → step s = .next t → t.readData = some v →
    (showsIdle v = true ↔ s.busy = false) ∧
      resultOf v = (if s.busy then none else some (s.res, s.timedOut)) ∧
      (mayUsePeripheral v = true ↔ s.busy = false ∧ s.mux = .i2c ∧ ¬ (s.fault = true ∧ s.err = .pinReconf)) ∧
      ∃ e, (s.busy = false → e = s.env) ∧ t = { s with host := rest, readData := some v, env := e }

/-- R254: a reset breaks the host's duty at every moment of a STORE, from its acceptance to its end, and at no moment of
another command; writes and reads break no duty at any moment (R250, R56, R57). -/
def Obligations.ResetDutyHoldsExactlyDuringStore : Prop :=
  (∀ (i : Instr) (s : State) (n : Nat),
    HostOp.reset.keepsDuty (ticks n (s.begin (body i))) =
      !(match i with
        | .store _ => (ticks n (s.begin (body i))).busy
        | _ => false)) ∧
  ∀ (s : State) (off : Nat) (w : Word),
    (HostOp.write off w).keepsDuty s = true ∧ (HostOp.post off w).keepsDuty s = true ∧
      (HostOp.read off).keepsDuty s = true

/-- R258, R138, of START and STOP each alone: with both lines driven, a START that begins from the idle bus makes a
start condition and no other, and a STOP that does not begin from it makes a stop condition and no other; either one
that breaks the duty with SDA LOW, or from the idle bus, makes another condition before its own. -/
def Obligations.FramesDutyMeansOneCondition : Prop :=
  ∀ s t : State, s.gpioOut →
    (exec .start s = .next t → ∃ evs, Emits s t evs ∧
      (framesDuty .start s = true → busConditions s.scl.lat s.sda.lat evs = [.start]) ∧
      (s.sda.lat = false → framesDuty .start s = false ∧
        busConditions s.scl.lat s.sda.lat evs = [.stop, .start])) ∧
    (exec .stop s = .next t → ∃ evs, Emits s t evs ∧
      busConditions s.scl.lat s.sda.lat evs = if framesDuty .stop s then [.stop] else [.start, .stop])

/-- R252, R253, R257, R258: the store sequence by hand keeps the host's duties from every state in which both latches are
HIGH and kept: every START comes from the idle bus and every STOP does not, every no-ack SEND is followed by STOP, `WAITM 10`
stands between the halves, and the pins are restored. -/
def Obligations.StoreByHandKeepsTheHostDuties : Prop :=
  ∀ (da : BitVec 7) (s : State), s.params.latchOnOut = .retain → s.scl.lat = true → s.sda.lat = true →
    framesFromIdle (storeByHand da) s = true ∧ noAckThenStop (storeByHand da) = true ∧
      restoresPins s.mux (storeByHand da) = true ∧
      ∃ first second, storeByHand da = first ++ .waitm 10 :: second ∧ headCmd ∈ first ∧ first.getLast? = some .stop ∧
        headCmd ∈ second ∧ second.head? = some .start

/-! ## Notation (30_encoding.md, section 6) -/

/-- R93: the expansions of the pseudo-instructions and their words; `WAIT d` waits d microseconds in all, by commands
that have encodings. -/
def Obligations.PseudoInstructionsExpand : Prop :=
  (∀ v : Nat, sendb v = .send (BitVec.ofNat 8 (v &&& 0xFF)) 8 false true ∧
    encode (sendb v) = 0x7700#16 ||| BitVec.ofNat 16 (v &&& 0xFF)) ∧
  (∀ (v : Nat) (a : Bool), sendk v a = .send (BitVec.ofNat 8 (v &&& 0xFF)) 8 a true ∧
    encode (sendk v a) = 0x7700#16 ||| bitAt a 11 ||| BitVec.ofNat 16 (v &&& 0xFF)) ∧
  headCmd = .send 0x02#8 3 false false ∧ encode headCmd = 0x6202#16 ∧
  rawCmd = .lmux .gpio ∧ encode rawCmd = 0xDA00#16 ∧ unrawCmd = .lmux .i2c ∧ encode unrawCmd = 0xD800#16 ∧
  ∀ d : Nat, ((waitCmds d).map waitOf).sum = d ∧ (∀ i ∈ waitCmds d, i.wf = true) ∧
    ∃ tail, waitCmds d = List.replicate (d / 4095000) (.waitm 4095) ++ tail ∧
      tail = (if d % 4095000 / 1000 = 0 then [] else [.waitm (BitVec.ofNat 12 (d % 4095000 / 1000))]) ++
        (if d % 1000 = 0 then [] else [.waitu (BitVec.ofNat 12 (d % 1000))])

/-- R91: the assembler writes words only of commands that have encodings: the words of the commands of the text's lines, in
order. -/
def Obligations.AssembledCommandsHaveEncodings : Prop :=
  (∀ (line : List Char) (is : List Instr), asmLine line = some is → ∀ i ∈ is, i.wf = true) ∧
  ∀ (text : String) (ws : List Word), assemble text = some ws →
    ∃ is : List Instr, asmLines (splitAtChar '\n' text.toList) = some is ∧ ws = is.map encode ∧ ∀ i ∈ is, i.wf = true

/-- R91: numeric operands that are in their ranges reach the command whole, and one outside its range is an error; so is an
operand that is no number, line, direction, level or setting, and one line in error leaves the text without a word
(log 24). -/
def Obligations.AssemblerRefusesOperandsOutOfRange : Prop :=
  (∀ (vs ns as ws : List Char) (v n a w : Nat), parseNumber vs = some v → parseNumber ns = some n →
    parseNumber as = some a → parseNumber ws = some w →
    asmCommand "SEND".toList [vs, ns, as, ws] =
      if v ≤ 255 ∧ (1 ≤ n ∧ n ≤ 8) ∧ a ≤ 1 ∧ w ≤ 1 then
        some [.send (BitVec.ofNat 8 v) n (decide (a = 1)) (decide (w = 1))]
      else none) ∧
  (∀ (cs : List Char) (c : Nat), parseNumber cs = some c →
    asmCommand "RACK".toList [cs] = (if c ≤ 1 then some [.rack (decide (c = 1))] else none) ∧
    asmCommand "STORE".toList [cs] = (if c ≤ 127 then some [.store (BitVec.ofNat 7 c)] else none) ∧
    asmCommand "WAITU".toList [cs] = (if c ≤ 4095 then some [.waitu (BitVec.ofNat 12 c)] else none) ∧
    asmCommand "WAITM".toList [cs] = (if c ≤ 4095 then some [.waitm (BitVec.ofNat 12 c)] else none) ∧
    ∀ (ls : List Char) (l : Line), parseLine ls = some l →
      asmCommand "LWR".toList [ls, cs] = if c ≤ 1 then some [.lwr l (decide (c = 1))] else none) ∧
  (∀ cs : List Char, parseNumber cs = none →
    asmCommand "RACK".toList [cs] = none ∧ asmCommand "STORE".toList [cs] = none ∧
    asmCommand "WAITU".toList [cs] = none ∧ asmCommand "WAITM".toList [cs] = none ∧
    ∀ xs ys zs : List Char,
      asmCommand "SEND".toList [cs, xs, ys, zs] = none ∧ asmCommand "SEND".toList [xs, cs, ys, zs] = none ∧
      asmCommand "SEND".toList [xs, ys, cs, zs] = none ∧ asmCommand "SEND".toList [xs, ys, zs, cs] = none) ∧
  (∀ ls xs : List Char, parseLine ls = none →
    asmCommand "LDIR".toList [ls, xs] = none ∧ asmCommand "LWR".toList [ls, xs] = none ∧
    asmCommand "LRD".toList [ls] = none) ∧
  (∀ ls xs : List Char, (parseDir xs = none → asmCommand "LDIR".toList [ls, xs] = none) ∧
    (parseLevel xs = none → asmCommand "LWR".toList [ls, xs] = none) ∧
    (parseMux xs = none → asmCommand "LMUX".toList [xs] = none)) ∧
  ∀ (lines : List (List Char)) (line : List Char), line ∈ lines → asmLine line = none → asmLines lines = none
end

