-- ==== Sys2Proof/Laws/Flags.lean ====
section
/-!
SUPPORT. Where the fields of STATUS stand in the word that a host reads (R52).
-/

namespace Sys2Proof.Machine

/-- Every field of STATUS, by its place. -/
theorem State.statusWith_fields (s : State) (res timedOut mux : Bool) :
    (s.statusWith res timedOut mux).getLsbD 0 = res ∧ (s.statusWith res timedOut mux).getLsbD 1 = timedOut ∧
      (s.statusWith res timedOut mux).getLsbD 2 = s.busy ∧ (s.statusWith res timedOut mux).getLsbD 3 = s.fault ∧
      (s.statusWith res timedOut mux).extractLsb' 4 2 = s.err.code ∧
      (s.statusWith res timedOut mux).getLsbD 6 = mux ∧ (s.statusWith res timedOut mux).extractLsb' 7 9 = 0#9 := by
  unfold State.statusWith
  generalize s.busy = busy
  generalize s.fault = fault
  generalize s.err = err
  revert res timedOut mux busy fault
  cases err <;> decide

@[simp] theorem ErrCode.code_eq_pinReconf (e : ErrCode) : e.code = ErrCode.pinReconf.code ↔ e = .pinReconf := by
  cases e <;> decide

@[simp] theorem Mux.statusBit_eq_false (m : Mux) : Mux.statusBit m = false ↔ m = .i2c := by
  cases m <;> decide

end Sys2Proof.Machine
end

