-- ==== Sys2Proof/Laws/State.lean ====
section
/-!
SUPPORT. One lemma per field per update of the state: what each named operation leaves of each field. The fields an
operation changes in a way that depends on its operands have their lemmas in Sys2Proof/Laws/Ops.lean.
-/

namespace Sys2Proof.Machine

/-! ### `setLine` -/

@[simp] theorem State.setLine_mux (s : State) (l : Line) (x : LineState) : (s.setLine l x).mux = s.mux :=
    by
  cases l <;> rfl
@[simp] theorem State.setLine_res (s : State) (l : Line) (x : LineState) : (s.setLine l x).res = s.res :=
    by
  cases l <;> rfl
@[simp] theorem State.setLine_timedOut (s : State) (l : Line) (x : LineState) : (s.setLine l x).timedOut = s.timedOut :=
    by
  cases l <;> rfl
@[simp] theorem State.setLine_busy (s : State) (l : Line) (x : LineState) : (s.setLine l x).busy = s.busy :=
    by
  cases l <;> rfl
@[simp] theorem State.setLine_fault (s : State) (l : Line) (x : LineState) : (s.setLine l x).fault = s.fault :=
    by
  cases l <;> rfl
@[simp] theorem State.setLine_err (s : State) (l : Line) (x : LineState) : (s.setLine l x).err = s.err :=
    by
  cases l <;> rfl
@[simp] theorem State.setLine_lastCmd (s : State) (l : Line) (x : LineState) : (s.setLine l x).lastCmd = s.lastCmd :=
    by
  cases l <;> rfl
@[simp] theorem State.setLine_seq (s : State) (l : Line) (x : LineState) : (s.setLine l x).seq = s.seq :=
    by
  cases l <;> rfl
@[simp] theorem State.setLine_t (s : State) (l : Line) (x : LineState) : (s.setLine l x).t = s.t :=
    by
  cases l <;> rfl
@[simp] theorem State.setLine_trace (s : State) (l : Line) (x : LineState) : (s.setLine l x).trace = s.trace :=
    by
  cases l <;> rfl
@[simp] theorem State.setLine_params (s : State) (l : Line) (x : LineState) : (s.setLine l x).params = s.params :=
    by
  cases l <;> rfl
@[simp] theorem State.setLine_env (s : State) (l : Line) (x : LineState) : (s.setLine l x).env = s.env :=
    by
  cases l <;> rfl
@[simp] theorem State.setLine_host (s : State) (l : Line) (x : LineState) : (s.setLine l x).host = s.host :=
    by
  cases l <;> rfl
@[simp] theorem State.setLine_readData (s : State) (l : Line) (x : LineState) : (s.setLine l x).readData = s.readData :=
    by
  cases l <;> rfl

/-! ### `setLat` -/

@[simp] theorem State.setLat_mux (s : State) (l : Line) (v : Bool) : (s.setLat l v).mux = s.mux :=
    by
  cases l <;> rfl
@[simp] theorem State.setLat_res (s : State) (l : Line) (v : Bool) : (s.setLat l v).res = s.res :=
    by
  cases l <;> rfl
@[simp] theorem State.setLat_timedOut (s : State) (l : Line) (v : Bool) : (s.setLat l v).timedOut = s.timedOut :=
    by
  cases l <;> rfl
@[simp] theorem State.setLat_busy (s : State) (l : Line) (v : Bool) : (s.setLat l v).busy = s.busy :=
    by
  cases l <;> rfl
@[simp] theorem State.setLat_fault (s : State) (l : Line) (v : Bool) : (s.setLat l v).fault = s.fault :=
    by
  cases l <;> rfl
@[simp] theorem State.setLat_err (s : State) (l : Line) (v : Bool) : (s.setLat l v).err = s.err :=
    by
  cases l <;> rfl
@[simp] theorem State.setLat_lastCmd (s : State) (l : Line) (v : Bool) : (s.setLat l v).lastCmd = s.lastCmd :=
    by
  cases l <;> rfl
@[simp] theorem State.setLat_seq (s : State) (l : Line) (v : Bool) : (s.setLat l v).seq = s.seq :=
    by
  cases l <;> rfl
@[simp] theorem State.setLat_t (s : State) (l : Line) (v : Bool) : (s.setLat l v).t = s.t := by
  cases l <;> rfl
@[simp] theorem State.setLat_trace (s : State) (l : Line) (v : Bool) : (s.setLat l v).trace = s.trace :=
    by
  cases l <;> rfl
@[simp] theorem State.setLat_params (s : State) (l : Line) (v : Bool) : (s.setLat l v).params = s.params :=
    by
  cases l <;> rfl
@[simp] theorem State.setLat_env (s : State) (l : Line) (v : Bool) : (s.setLat l v).env = s.env :=
    by
  cases l <;> rfl
@[simp] theorem State.setLat_host (s : State) (l : Line) (v : Bool) : (s.setLat l v).host = s.host :=
    by
  cases l <;> rfl
@[simp] theorem State.setLat_readData (s : State) (l : Line) (v : Bool) : (s.setLat l v).readData = s.readData :=
    by
  cases l <;> rfl

/-! ### `setDir` -/

@[simp] theorem State.setDir_mux (s : State) (l : Line) (d : Dir) : (s.setDir l d).mux = s.mux := by
  cases l <;> rfl
@[simp] theorem State.setDir_res (s : State) (l : Line) (d : Dir) : (s.setDir l d).res = s.res := by
  cases l <;> rfl
@[simp] theorem State.setDir_timedOut (s : State) (l : Line) (d : Dir) : (s.setDir l d).timedOut = s.timedOut :=
    by
  cases l <;> rfl
@[simp] theorem State.setDir_busy (s : State) (l : Line) (d : Dir) : (s.setDir l d).busy = s.busy :=
    by
  cases l <;> rfl
@[simp] theorem State.setDir_fault (s : State) (l : Line) (d : Dir) : (s.setDir l d).fault = s.fault :=
    by
  cases l <;> rfl
@[simp] theorem State.setDir_err (s : State) (l : Line) (d : Dir) : (s.setDir l d).err = s.err := by
  cases l <;> rfl
@[simp] theorem State.setDir_lastCmd (s : State) (l : Line) (d : Dir) : (s.setDir l d).lastCmd = s.lastCmd :=
    by
  cases l <;> rfl
@[simp] theorem State.setDir_seq (s : State) (l : Line) (d : Dir) : (s.setDir l d).seq = s.seq := by
  cases l <;> rfl
@[simp] theorem State.setDir_t (s : State) (l : Line) (d : Dir) : (s.setDir l d).t = s.t := by
  cases l <;> rfl
@[simp] theorem State.setDir_trace (s : State) (l : Line) (d : Dir) : (s.setDir l d).trace = s.trace :=
    by
  cases l <;> rfl
@[simp] theorem State.setDir_params (s : State) (l : Line) (d : Dir) : (s.setDir l d).params = s.params :=
    by
  cases l <;> rfl
@[simp] theorem State.setDir_env (s : State) (l : Line) (d : Dir) : (s.setDir l d).env = s.env := by
  cases l <;> rfl
@[simp] theorem State.setDir_host (s : State) (l : Line) (d : Dir) : (s.setDir l d).host = s.host :=
    by
  cases l <;> rfl
@[simp] theorem State.setDir_readData (s : State) (l : Line) (d : Dir) : (s.setDir l d).readData = s.readData :=
    by
  cases l <;> rfl

/-! ### `countRead` -/

@[simp] theorem State.countRead_mux (s : State) : (s.countRead).mux = s.mux := rfl
@[simp] theorem State.countRead_scl (s : State) : (s.countRead).scl = s.scl := rfl
@[simp] theorem State.countRead_sda (s : State) : (s.countRead).sda = s.sda := rfl
@[simp] theorem State.countRead_res (s : State) : (s.countRead).res = s.res := rfl
@[simp] theorem State.countRead_timedOut (s : State) : (s.countRead).timedOut = s.timedOut := rfl
@[simp] theorem State.countRead_busy (s : State) : (s.countRead).busy = s.busy := rfl
@[simp] theorem State.countRead_fault (s : State) : (s.countRead).fault = s.fault := rfl
@[simp] theorem State.countRead_err (s : State) : (s.countRead).err = s.err := rfl
@[simp] theorem State.countRead_lastCmd (s : State) : (s.countRead).lastCmd = s.lastCmd := rfl
@[simp] theorem State.countRead_seq (s : State) : (s.countRead).seq = s.seq := rfl
@[simp] theorem State.countRead_t (s : State) : (s.countRead).t = s.t := rfl
@[simp] theorem State.countRead_trace (s : State) : (s.countRead).trace = s.trace := rfl
@[simp] theorem State.countRead_params (s : State) : (s.countRead).params = s.params := rfl
@[simp] theorem State.countRead_env (s : State) : (s.countRead).env = { s.env with reads := s.env.reads + 1 } := rfl
@[simp] theorem State.countRead_host (s : State) : (s.countRead).host = s.host := rfl
@[simp] theorem State.countRead_readData (s : State) : (s.countRead).readData = s.readData := rfl

/-! ### `takeAnswer` -/

@[simp] theorem State.takeAnswer_mux (s : State) : (s.takeAnswer).mux = s.mux := rfl
@[simp] theorem State.takeAnswer_scl (s : State) : (s.takeAnswer).scl = s.scl := rfl
@[simp] theorem State.takeAnswer_sda (s : State) : (s.takeAnswer).sda = s.sda := rfl
@[simp] theorem State.takeAnswer_res (s : State) : (s.takeAnswer).res = s.res := rfl
@[simp] theorem State.takeAnswer_timedOut (s : State) : (s.takeAnswer).timedOut = s.timedOut := rfl
@[simp] theorem State.takeAnswer_busy (s : State) : (s.takeAnswer).busy = s.busy := rfl
@[simp] theorem State.takeAnswer_fault (s : State) : (s.takeAnswer).fault = s.fault := rfl
@[simp] theorem State.takeAnswer_err (s : State) : (s.takeAnswer).err = s.err := rfl
@[simp] theorem State.takeAnswer_lastCmd (s : State) : (s.takeAnswer).lastCmd = s.lastCmd := rfl
@[simp] theorem State.takeAnswer_seq (s : State) : (s.takeAnswer).seq = s.seq := rfl
@[simp] theorem State.takeAnswer_t (s : State) : (s.takeAnswer).t = s.t := rfl
@[simp] theorem State.takeAnswer_trace (s : State) : (s.takeAnswer).trace = s.trace := rfl
@[simp] theorem State.takeAnswer_params (s : State) : (s.takeAnswer).params = s.params := rfl
@[simp] theorem State.takeAnswer_env (s : State) : (s.takeAnswer).env = { s.env with answers := s.env.answers.tail } :=
    rfl
@[simp] theorem State.takeAnswer_host (s : State) : (s.takeAnswer).host = s.host := rfl
@[simp] theorem State.takeAnswer_readData (s : State) : (s.takeAnswer).readData = s.readData := rfl

/-! ### `takeSwitch` -/

@[simp] theorem State.takeSwitch_mux (s : State) : (s.takeSwitch).mux = s.mux :=
    by
  unfold State.takeSwitch; split <;> rfl
@[simp] theorem State.takeSwitch_scl (s : State) : (s.takeSwitch).scl = s.scl :=
    by
  unfold State.takeSwitch; split <;> rfl
@[simp] theorem State.takeSwitch_sda (s : State) : (s.takeSwitch).sda = s.sda :=
    by
  unfold State.takeSwitch; split <;> rfl
@[simp] theorem State.takeSwitch_res (s : State) : (s.takeSwitch).res = s.res :=
    by
  unfold State.takeSwitch; split <;> rfl
@[simp] theorem State.takeSwitch_timedOut (s : State) : (s.takeSwitch).timedOut = s.timedOut :=
    by
  unfold State.takeSwitch; split <;> rfl
@[simp] theorem State.takeSwitch_busy (s : State) : (s.takeSwitch).busy = s.busy :=
    by
  unfold State.takeSwitch; split <;> rfl
@[simp] theorem State.takeSwitch_fault (s : State) : (s.takeSwitch).fault = s.fault :=
    by
  unfold State.takeSwitch; split <;> rfl
@[simp] theorem State.takeSwitch_err (s : State) : (s.takeSwitch).err = s.err :=
    by
  unfold State.takeSwitch; split <;> rfl
@[simp] theorem State.takeSwitch_lastCmd (s : State) : (s.takeSwitch).lastCmd = s.lastCmd :=
    by
  unfold State.takeSwitch; split <;> rfl
@[simp] theorem State.takeSwitch_seq (s : State) : (s.takeSwitch).seq = s.seq :=
    by
  unfold State.takeSwitch; split <;> rfl
@[simp] theorem State.takeSwitch_t (s : State) : (s.takeSwitch).t = s.t := by
  unfold State.takeSwitch; split <;> rfl
@[simp] theorem State.takeSwitch_trace (s : State) : (s.takeSwitch).trace = s.trace :=
    by
  unfold State.takeSwitch; split <;> rfl
@[simp] theorem State.takeSwitch_params (s : State) : (s.takeSwitch).params = s.params :=
    by
  unfold State.takeSwitch; split <;> rfl
@[simp] theorem State.takeSwitch_host (s : State) : (s.takeSwitch).host = s.host :=
    by
  unfold State.takeSwitch; split <;> rfl
@[simp] theorem State.takeSwitch_readData (s : State) : (s.takeSwitch).readData = s.readData :=
    by
  unfold State.takeSwitch; split <;> rfl

/-! ### `takeSlack` -/

@[simp] theorem State.takeSlack_mux (s : State) : (s.takeSlack).mux = s.mux := rfl
@[simp] theorem State.takeSlack_scl (s : State) : (s.takeSlack).scl = s.scl := rfl
@[simp] theorem State.takeSlack_sda (s : State) : (s.takeSlack).sda = s.sda := rfl
@[simp] theorem State.takeSlack_res (s : State) : (s.takeSlack).res = s.res := rfl
@[simp] theorem State.takeSlack_timedOut (s : State) : (s.takeSlack).timedOut = s.timedOut := rfl
@[simp] theorem State.takeSlack_busy (s : State) : (s.takeSlack).busy = s.busy := rfl
@[simp] theorem State.takeSlack_fault (s : State) : (s.takeSlack).fault = s.fault := rfl
@[simp] theorem State.takeSlack_err (s : State) : (s.takeSlack).err = s.err := rfl
@[simp] theorem State.takeSlack_lastCmd (s : State) : (s.takeSlack).lastCmd = s.lastCmd := rfl
@[simp] theorem State.takeSlack_seq (s : State) : (s.takeSlack).seq = s.seq := rfl
@[simp] theorem State.takeSlack_t (s : State) : (s.takeSlack).t = s.t := rfl
@[simp] theorem State.takeSlack_trace (s : State) : (s.takeSlack).trace = s.trace := rfl
@[simp] theorem State.takeSlack_params (s : State) : (s.takeSlack).params = s.params := rfl
@[simp] theorem State.takeSlack_env (s : State) : (s.takeSlack).env = { s.env with slack := s.env.slack.tail, draws := s.env.draws + 1 } :=
    rfl
@[simp] theorem State.takeSlack_host (s : State) : (s.takeSlack).host = s.host := rfl
@[simp] theorem State.takeSlack_readData (s : State) : (s.takeSlack).readData = s.readData := rfl

/-! ### `takeValue` -/

@[simp] theorem State.takeValue_mux (s : State) : (s.takeValue).mux = s.mux := rfl
@[simp] theorem State.takeValue_scl (s : State) : (s.takeValue).scl = s.scl := rfl
@[simp] theorem State.takeValue_sda (s : State) : (s.takeValue).sda = s.sda := rfl
@[simp] theorem State.takeValue_res (s : State) : (s.takeValue).res = s.res := rfl
@[simp] theorem State.takeValue_timedOut (s : State) : (s.takeValue).timedOut = s.timedOut := rfl
@[simp] theorem State.takeValue_busy (s : State) : (s.takeValue).busy = s.busy := rfl
@[simp] theorem State.takeValue_fault (s : State) : (s.takeValue).fault = s.fault := rfl
@[simp] theorem State.takeValue_err (s : State) : (s.takeValue).err = s.err := rfl
@[simp] theorem State.takeValue_lastCmd (s : State) : (s.takeValue).lastCmd = s.lastCmd := rfl
@[simp] theorem State.takeValue_seq (s : State) : (s.takeValue).seq = s.seq := rfl
@[simp] theorem State.takeValue_t (s : State) : (s.takeValue).t = s.t := rfl
@[simp] theorem State.takeValue_trace (s : State) : (s.takeValue).trace = s.trace := rfl
@[simp] theorem State.takeValue_params (s : State) : (s.takeValue).params = s.params := rfl
@[simp] theorem State.takeValue_env (s : State) : (s.takeValue).env = { s.env with values := s.env.values.tail, draws := s.env.draws + 1 } :=
    rfl
@[simp] theorem State.takeValue_host (s : State) : (s.takeValue).host = s.host := rfl
@[simp] theorem State.takeValue_readData (s : State) : (s.takeValue).readData = s.readData := rfl

/-! ### `emit` -/

@[simp] theorem State.emit_mux (s : State) (e : Event) : (s.emit e).mux = s.mux := rfl
@[simp] theorem State.emit_scl (s : State) (e : Event) : (s.emit e).scl = s.scl := rfl
@[simp] theorem State.emit_sda (s : State) (e : Event) : (s.emit e).sda = s.sda := rfl
@[simp] theorem State.emit_res (s : State) (e : Event) : (s.emit e).res = s.res := rfl
@[simp] theorem State.emit_timedOut (s : State) (e : Event) : (s.emit e).timedOut = s.timedOut := rfl
@[simp] theorem State.emit_busy (s : State) (e : Event) : (s.emit e).busy = s.busy := rfl
@[simp] theorem State.emit_fault (s : State) (e : Event) : (s.emit e).fault = s.fault := rfl
@[simp] theorem State.emit_err (s : State) (e : Event) : (s.emit e).err = s.err := rfl
@[simp] theorem State.emit_lastCmd (s : State) (e : Event) : (s.emit e).lastCmd = s.lastCmd := rfl
@[simp] theorem State.emit_seq (s : State) (e : Event) : (s.emit e).seq = s.seq := rfl
@[simp] theorem State.emit_t (s : State) (e : Event) : (s.emit e).t = s.t + e.minTime + s.nextSlack := rfl
@[simp] theorem State.emit_trace (s : State) (e : Event) : (s.emit e).trace = s.trace ++ [(s.t, e)] := rfl
@[simp] theorem State.emit_params (s : State) (e : Event) : (s.emit e).params = s.params := rfl
@[simp] theorem State.emit_env (s : State) (e : Event) : (s.emit e).env = { s.env with slack := s.env.slack.tail, draws := s.env.draws + 1 } :=
    rfl
@[simp] theorem State.emit_host (s : State) (e : Event) : (s.emit e).host = s.host := rfl
@[simp] theorem State.emit_readData (s : State) (e : Event) : (s.emit e).readData = s.readData := rfl

/-! ### `lineWrite` -/

@[simp] theorem State.lineWrite_mux (s : State) (l : Line) (v : Bool) : (s.lineWrite l v).mux = s.mux :=
    by
  cases l <;> rfl
@[simp] theorem State.lineWrite_res (s : State) (l : Line) (v : Bool) : (s.lineWrite l v).res = s.res :=
    by
  cases l <;> rfl
@[simp] theorem State.lineWrite_timedOut (s : State) (l : Line) (v : Bool) : (s.lineWrite l v).timedOut = s.timedOut :=
    by
  cases l <;> rfl
@[simp] theorem State.lineWrite_busy (s : State) (l : Line) (v : Bool) : (s.lineWrite l v).busy = s.busy :=
    by
  cases l <;> rfl
@[simp] theorem State.lineWrite_fault (s : State) (l : Line) (v : Bool) : (s.lineWrite l v).fault = s.fault :=
    by
  cases l <;> rfl
@[simp] theorem State.lineWrite_err (s : State) (l : Line) (v : Bool) : (s.lineWrite l v).err = s.err :=
    by
  cases l <;> rfl
@[simp] theorem State.lineWrite_lastCmd (s : State) (l : Line) (v : Bool) : (s.lineWrite l v).lastCmd = s.lastCmd :=
    by
  cases l <;> rfl
@[simp] theorem State.lineWrite_seq (s : State) (l : Line) (v : Bool) : (s.lineWrite l v).seq = s.seq :=
    by
  cases l <;> rfl
@[simp] theorem State.lineWrite_t (s : State) (l : Line) (v : Bool) : (s.lineWrite l v).t = s.t + s.nextSlack :=
    by
  cases l <;> rfl
@[simp] theorem State.lineWrite_trace (s : State) (l : Line) (v : Bool) : (s.lineWrite l v).trace = s.trace ++ [(s.t, .write l v)] :=
    by
  cases l <;> rfl
@[simp] theorem State.lineWrite_params (s : State) (l : Line) (v : Bool) : (s.lineWrite l v).params = s.params :=
    by
  cases l <;> rfl
@[simp] theorem State.lineWrite_env (s : State) (l : Line) (v : Bool) : (s.lineWrite l v).env = { s.env with slack := s.env.slack.tail, draws := s.env.draws + 1 } :=
    by
  cases l <;> rfl
@[simp] theorem State.lineWrite_host (s : State) (l : Line) (v : Bool) : (s.lineWrite l v).host = s.host :=
    by
  cases l <;> rfl
@[simp] theorem State.lineWrite_readData (s : State) (l : Line) (v : Bool) : (s.lineWrite l v).readData = s.readData :=
    by
  cases l <;> rfl

/-! ### `lineRead` -/

@[simp] theorem State.lineRead_mux (s : State) (l : Line) : (s.lineRead l).mux = s.mux :=
    by
  unfold State.lineRead; split <;> rfl
@[simp] theorem State.lineRead_scl (s : State) (l : Line) : (s.lineRead l).scl = s.scl :=
    by
  unfold State.lineRead; split <;> rfl
@[simp] theorem State.lineRead_sda (s : State) (l : Line) : (s.lineRead l).sda = s.sda :=
    by
  unfold State.lineRead; split <;> rfl
@[simp] theorem State.lineRead_res (s : State) (l : Line) : (s.lineRead l).res = s.res :=
    by
  unfold State.lineRead; split <;> rfl
@[simp] theorem State.lineRead_timedOut (s : State) (l : Line) : (s.lineRead l).timedOut = s.timedOut :=
    by
  unfold State.lineRead; split <;> rfl
@[simp] theorem State.lineRead_busy (s : State) (l : Line) : (s.lineRead l).busy = s.busy :=
    by
  unfold State.lineRead; split <;> rfl
@[simp] theorem State.lineRead_fault (s : State) (l : Line) : (s.lineRead l).fault = s.fault :=
    by
  unfold State.lineRead; split <;> rfl
@[simp] theorem State.lineRead_err (s : State) (l : Line) : (s.lineRead l).err = s.err :=
    by
  unfold State.lineRead; split <;> rfl
@[simp] theorem State.lineRead_lastCmd (s : State) (l : Line) : (s.lineRead l).lastCmd = s.lastCmd :=
    by
  unfold State.lineRead; split <;> rfl
@[simp] theorem State.lineRead_seq (s : State) (l : Line) : (s.lineRead l).seq = s.seq :=
    by
  unfold State.lineRead; split <;> rfl
@[simp] theorem State.lineRead_t (s : State) (l : Line) : (s.lineRead l).t = s.t + s.nextSlack :=
    by
  unfold State.lineRead; split <;> rfl
@[simp] theorem State.lineRead_trace (s : State) (l : Line) : (s.lineRead l).trace = s.trace ++ [(s.t, .read l (s.readLevel l))] :=
    by
  unfold State.lineRead; split <;> rfl
@[simp] theorem State.lineRead_params (s : State) (l : Line) : (s.lineRead l).params = s.params :=
    by
  unfold State.lineRead; split <;> rfl
@[simp] theorem State.lineRead_host (s : State) (l : Line) : (s.lineRead l).host = s.host :=
    by
  unfold State.lineRead; split <;> rfl
@[simp] theorem State.lineRead_readData (s : State) (l : Line) : (s.lineRead l).readData = s.readData :=
    by
  unfold State.lineRead; split <;> rfl

/-! ### `latchOnOut` -/

@[simp] theorem State.latchOnOut_mux (s : State) (l : Line) : (s.latchOnOut l).mux = s.mux :=
    by
  unfold State.latchOnOut; split <;> simp
@[simp] theorem State.latchOnOut_res (s : State) (l : Line) : (s.latchOnOut l).res = s.res :=
    by
  unfold State.latchOnOut; split <;> simp
@[simp] theorem State.latchOnOut_timedOut (s : State) (l : Line) : (s.latchOnOut l).timedOut = s.timedOut :=
    by
  unfold State.latchOnOut; split <;> simp
@[simp] theorem State.latchOnOut_busy (s : State) (l : Line) : (s.latchOnOut l).busy = s.busy :=
    by
  unfold State.latchOnOut; split <;> simp
@[simp] theorem State.latchOnOut_fault (s : State) (l : Line) : (s.latchOnOut l).fault = s.fault :=
    by
  unfold State.latchOnOut; split <;> simp
@[simp] theorem State.latchOnOut_err (s : State) (l : Line) : (s.latchOnOut l).err = s.err :=
    by
  unfold State.latchOnOut; split <;> simp
@[simp] theorem State.latchOnOut_lastCmd (s : State) (l : Line) : (s.latchOnOut l).lastCmd = s.lastCmd :=
    by
  unfold State.latchOnOut; split <;> simp
@[simp] theorem State.latchOnOut_seq (s : State) (l : Line) : (s.latchOnOut l).seq = s.seq :=
    by
  unfold State.latchOnOut; split <;> simp
@[simp] theorem State.latchOnOut_t (s : State) (l : Line) : (s.latchOnOut l).t = s.t :=
    by
  unfold State.latchOnOut; split <;> simp
@[simp] theorem State.latchOnOut_trace (s : State) (l : Line) : (s.latchOnOut l).trace = s.trace :=
    by
  unfold State.latchOnOut; split <;> simp
@[simp] theorem State.latchOnOut_params (s : State) (l : Line) : (s.latchOnOut l).params = s.params :=
    by
  unfold State.latchOnOut; split <;> simp
@[simp] theorem State.latchOnOut_host (s : State) (l : Line) : (s.latchOnOut l).host = s.host :=
    by
  unfold State.latchOnOut; split <;> simp
@[simp] theorem State.latchOnOut_readData (s : State) (l : Line) : (s.latchOnOut l).readData = s.readData :=
    by
  unfold State.latchOnOut; split <;> simp

/-! ### `turn` -/

@[simp] theorem State.turn_mux (s : State) (l : Line) (d : Dir) : (s.turn l d).mux = s.mux :=
    by
  cases d <;> simp [State.turn]
@[simp] theorem State.turn_res (s : State) (l : Line) (d : Dir) : (s.turn l d).res = s.res :=
    by
  cases d <;> simp [State.turn]
@[simp] theorem State.turn_timedOut (s : State) (l : Line) (d : Dir) : (s.turn l d).timedOut = s.timedOut :=
    by
  cases d <;> simp [State.turn]
@[simp] theorem State.turn_busy (s : State) (l : Line) (d : Dir) : (s.turn l d).busy = s.busy :=
    by
  cases d <;> simp [State.turn]
@[simp] theorem State.turn_fault (s : State) (l : Line) (d : Dir) : (s.turn l d).fault = s.fault :=
    by
  cases d <;> simp [State.turn]
@[simp] theorem State.turn_err (s : State) (l : Line) (d : Dir) : (s.turn l d).err = s.err :=
    by
  cases d <;> simp [State.turn]
@[simp] theorem State.turn_lastCmd (s : State) (l : Line) (d : Dir) : (s.turn l d).lastCmd = s.lastCmd :=
    by
  cases d <;> simp [State.turn]
@[simp] theorem State.turn_seq (s : State) (l : Line) (d : Dir) : (s.turn l d).seq = s.seq :=
    by
  cases d <;> simp [State.turn]
@[simp] theorem State.turn_t (s : State) (l : Line) (d : Dir) : (s.turn l d).t = s.t :=
    by
  cases d <;> simp [State.turn]
@[simp] theorem State.turn_trace (s : State) (l : Line) (d : Dir) : (s.turn l d).trace = s.trace :=
    by
  cases d <;> simp [State.turn]
@[simp] theorem State.turn_params (s : State) (l : Line) (d : Dir) : (s.turn l d).params = s.params :=
    by
  cases d <;> simp [State.turn]
@[simp] theorem State.turn_host (s : State) (l : Line) (d : Dir) : (s.turn l d).host = s.host :=
    by
  cases d <;> simp [State.turn]
@[simp] theorem State.turn_readData (s : State) (l : Line) (d : Dir) : (s.turn l d).readData = s.readData :=
    by
  cases d <;> simp [State.turn]

/-! ### `lineDir` -/

@[simp] theorem State.lineDir_mux (s : State) (l : Line) (d : Dir) : (s.lineDir l d).mux = s.mux :=
    by
  simp [State.lineDir]
@[simp] theorem State.lineDir_res (s : State) (l : Line) (d : Dir) : (s.lineDir l d).res = s.res :=
    by
  simp [State.lineDir]
@[simp] theorem State.lineDir_timedOut (s : State) (l : Line) (d : Dir) : (s.lineDir l d).timedOut = s.timedOut :=
    by
  simp [State.lineDir]
@[simp] theorem State.lineDir_busy (s : State) (l : Line) (d : Dir) : (s.lineDir l d).busy = s.busy :=
    by
  simp [State.lineDir]
@[simp] theorem State.lineDir_fault (s : State) (l : Line) (d : Dir) : (s.lineDir l d).fault = s.fault :=
    by
  simp [State.lineDir]
@[simp] theorem State.lineDir_err (s : State) (l : Line) (d : Dir) : (s.lineDir l d).err = s.err :=
    by
  simp [State.lineDir]
@[simp] theorem State.lineDir_lastCmd (s : State) (l : Line) (d : Dir) : (s.lineDir l d).lastCmd = s.lastCmd :=
    by
  simp [State.lineDir]
@[simp] theorem State.lineDir_seq (s : State) (l : Line) (d : Dir) : (s.lineDir l d).seq = s.seq :=
    by
  simp [State.lineDir]
@[simp] theorem State.lineDir_t (s : State) (l : Line) (d : Dir) : (s.lineDir l d).t = s.t + (s.turn l d).nextSlack :=
    by
  simp [State.lineDir, Event.minTime]
@[simp] theorem State.lineDir_trace (s : State) (l : Line) (d : Dir) : (s.lineDir l d).trace = s.trace ++ [(s.t, .dir l d)] :=
    by
  simp [State.lineDir]
@[simp] theorem State.lineDir_params (s : State) (l : Line) (d : Dir) : (s.lineDir l d).params = s.params :=
    by
  simp [State.lineDir]
@[simp] theorem State.lineDir_host (s : State) (l : Line) (d : Dir) : (s.lineDir l d).host = s.host :=
    by
  simp [State.lineDir]
@[simp] theorem State.lineDir_readData (s : State) (l : Line) (d : Dir) : (s.lineDir l d).readData = s.readData :=
    by
  simp [State.lineDir]

/-! ### `delay` -/

@[simp] theorem State.delay_mux (s : State) (d : Nat) : (s.delay d).mux = s.mux := rfl
@[simp] theorem State.delay_scl (s : State) (d : Nat) : (s.delay d).scl = s.scl := rfl
@[simp] theorem State.delay_sda (s : State) (d : Nat) : (s.delay d).sda = s.sda := rfl
@[simp] theorem State.delay_res (s : State) (d : Nat) : (s.delay d).res = s.res := rfl
@[simp] theorem State.delay_timedOut (s : State) (d : Nat) : (s.delay d).timedOut = s.timedOut := rfl
@[simp] theorem State.delay_busy (s : State) (d : Nat) : (s.delay d).busy = s.busy := rfl
@[simp] theorem State.delay_fault (s : State) (d : Nat) : (s.delay d).fault = s.fault := rfl
@[simp] theorem State.delay_err (s : State) (d : Nat) : (s.delay d).err = s.err := rfl
@[simp] theorem State.delay_lastCmd (s : State) (d : Nat) : (s.delay d).lastCmd = s.lastCmd := rfl
@[simp] theorem State.delay_seq (s : State) (d : Nat) : (s.delay d).seq = s.seq := rfl
@[simp] theorem State.delay_t (s : State) (d : Nat) : (s.delay d).t = s.t + d + s.nextSlack := rfl
@[simp] theorem State.delay_trace (s : State) (d : Nat) : (s.delay d).trace = s.trace ++ [(s.t, .delay d)] := rfl
@[simp] theorem State.delay_params (s : State) (d : Nat) : (s.delay d).params = s.params := rfl
@[simp] theorem State.delay_env (s : State) (d : Nat) : (s.delay d).env = { s.env with slack := s.env.slack.tail, draws := s.env.draws + 1 } :=
    rfl
@[simp] theorem State.delay_host (s : State) (d : Nat) : (s.delay d).host = s.host := rfl
@[simp] theorem State.delay_readData (s : State) (d : Nat) : (s.delay d).readData = s.readData := rfl

/-! ### `drawPins` -/

@[simp] theorem State.drawPins_res (s : State) : (s.drawPins).res = s.res := rfl
@[simp] theorem State.drawPins_timedOut (s : State) : (s.drawPins).timedOut = s.timedOut := rfl
@[simp] theorem State.drawPins_busy (s : State) : (s.drawPins).busy = s.busy := rfl
@[simp] theorem State.drawPins_fault (s : State) : (s.drawPins).fault = s.fault := rfl
@[simp] theorem State.drawPins_err (s : State) : (s.drawPins).err = s.err := rfl
@[simp] theorem State.drawPins_lastCmd (s : State) : (s.drawPins).lastCmd = s.lastCmd := rfl
@[simp] theorem State.drawPins_seq (s : State) : (s.drawPins).seq = s.seq := rfl
@[simp] theorem State.drawPins_t (s : State) : (s.drawPins).t = s.t := rfl
@[simp] theorem State.drawPins_trace (s : State) : (s.drawPins).trace = s.trace := rfl
@[simp] theorem State.drawPins_params (s : State) : (s.drawPins).params = s.params := rfl
@[simp] theorem State.drawPins_env (s : State) : (s.drawPins).env = { s.env with values := s.env.values.tail, draws := s.env.draws + 1 } :=
    rfl
@[simp] theorem State.drawPins_host (s : State) : (s.drawPins).host = s.host := rfl
@[simp] theorem State.drawPins_readData (s : State) : (s.drawPins).readData = s.readData := rfl

/-! ### `switchTo` -/

@[simp] theorem State.switchTo_mux (s : State) (m : Mux) : (s.switchTo m).mux = m :=
    by
  cases m <;> simp [State.switchTo]
@[simp] theorem State.switchTo_res (s : State) (m : Mux) : (s.switchTo m).res = s.res :=
    by
  cases m <;> simp [State.switchTo]
@[simp] theorem State.switchTo_timedOut (s : State) (m : Mux) : (s.switchTo m).timedOut = s.timedOut :=
    by
  cases m <;> simp [State.switchTo]
@[simp] theorem State.switchTo_busy (s : State) (m : Mux) : (s.switchTo m).busy = s.busy :=
    by
  cases m <;> simp [State.switchTo]
@[simp] theorem State.switchTo_fault (s : State) (m : Mux) : (s.switchTo m).fault = s.fault :=
    by
  cases m <;> simp [State.switchTo]
@[simp] theorem State.switchTo_err (s : State) (m : Mux) : (s.switchTo m).err = s.err :=
    by
  cases m <;> simp [State.switchTo]
@[simp] theorem State.switchTo_lastCmd (s : State) (m : Mux) : (s.switchTo m).lastCmd = s.lastCmd :=
    by
  cases m <;> simp [State.switchTo]
@[simp] theorem State.switchTo_seq (s : State) (m : Mux) : (s.switchTo m).seq = s.seq :=
    by
  cases m <;> simp [State.switchTo]
@[simp] theorem State.switchTo_t (s : State) (m : Mux) : (s.switchTo m).t = s.t :=
    by
  cases m <;> simp [State.switchTo]
@[simp] theorem State.switchTo_trace (s : State) (m : Mux) : (s.switchTo m).trace = s.trace :=
    by
  cases m <;> simp [State.switchTo]
@[simp] theorem State.switchTo_params (s : State) (m : Mux) : (s.switchTo m).params = s.params :=
    by
  cases m <;> simp [State.switchTo]
@[simp] theorem State.switchTo_host (s : State) (m : Mux) : (s.switchTo m).host = s.host :=
    by
  cases m <;> simp [State.switchTo]
@[simp] theorem State.switchTo_readData (s : State) (m : Mux) : (s.switchTo m).readData = s.readData :=
    by
  cases m <;> simp [State.switchTo]

/-! ### `muxSet` -/

@[simp] theorem State.muxSet_res (s : State) (m : Mux) : (s.muxSet m).res = s.res :=
    by
  unfold State.muxSet; split <;> simp [*]
@[simp] theorem State.muxSet_timedOut (s : State) (m : Mux) : (s.muxSet m).timedOut = s.timedOut :=
    by
  unfold State.muxSet; split <;> simp [*]
@[simp] theorem State.muxSet_busy (s : State) (m : Mux) : (s.muxSet m).busy = s.busy :=
    by
  unfold State.muxSet; split <;> simp [*]
@[simp] theorem State.muxSet_fault (s : State) (m : Mux) : (s.muxSet m).fault = s.fault :=
    by
  unfold State.muxSet; split <;> simp [*]
@[simp] theorem State.muxSet_err (s : State) (m : Mux) : (s.muxSet m).err = s.err :=
    by
  unfold State.muxSet; split <;> simp [*]
@[simp] theorem State.muxSet_lastCmd (s : State) (m : Mux) : (s.muxSet m).lastCmd = s.lastCmd :=
    by
  unfold State.muxSet; split <;> simp [*]
@[simp] theorem State.muxSet_seq (s : State) (m : Mux) : (s.muxSet m).seq = s.seq :=
    by
  unfold State.muxSet; split <;> simp [*]
@[simp] theorem State.muxSet_trace (s : State) (m : Mux) : (s.muxSet m).trace = s.trace ++ [(s.t, .mux m s.nextSwitch)] :=
    by
  unfold State.muxSet; split <;> simp [*]
@[simp] theorem State.muxSet_params (s : State) (m : Mux) : (s.muxSet m).params = s.params :=
    by
  unfold State.muxSet; split <;> simp [*]
@[simp] theorem State.muxSet_host (s : State) (m : Mux) : (s.muxSet m).host = s.host :=
    by
  unfold State.muxSet; split <;> simp [*]
@[simp] theorem State.muxSet_readData (s : State) (m : Mux) : (s.muxSet m).readData = s.readData :=
    by
  unfold State.muxSet; split <;> simp [*]

/-! ### `raise` -/

@[simp] theorem State.raise_mux (s : State) (c : ErrCode) : (s.raise c).mux = s.mux := rfl
@[simp] theorem State.raise_scl (s : State) (c : ErrCode) : (s.raise c).scl = s.scl := rfl
@[simp] theorem State.raise_sda (s : State) (c : ErrCode) : (s.raise c).sda = s.sda := rfl
@[simp] theorem State.raise_res (s : State) (c : ErrCode) : (s.raise c).res = s.res := rfl
@[simp] theorem State.raise_timedOut (s : State) (c : ErrCode) : (s.raise c).timedOut = s.timedOut := rfl
@[simp] theorem State.raise_busy (s : State) (c : ErrCode) : (s.raise c).busy = false := rfl
@[simp] theorem State.raise_fault (s : State) (c : ErrCode) : (s.raise c).fault = true := rfl
@[simp] theorem State.raise_err (s : State) (c : ErrCode) : (s.raise c).err = if s.fault then s.err else c := rfl
@[simp] theorem State.raise_lastCmd (s : State) (c : ErrCode) : (s.raise c).lastCmd = s.lastCmd := rfl
@[simp] theorem State.raise_seq (s : State) (c : ErrCode) : (s.raise c).seq = Seq.idle := rfl
@[simp] theorem State.raise_t (s : State) (c : ErrCode) : (s.raise c).t = s.t := rfl
@[simp] theorem State.raise_trace (s : State) (c : ErrCode) : (s.raise c).trace = s.trace := rfl
@[simp] theorem State.raise_params (s : State) (c : ErrCode) : (s.raise c).params = s.params := rfl
@[simp] theorem State.raise_env (s : State) (c : ErrCode) : (s.raise c).env = s.env := rfl
@[simp] theorem State.raise_host (s : State) (c : ErrCode) : (s.raise c).host = s.host := rfl
@[simp] theorem State.raise_readData (s : State) (c : ErrCode) : (s.raise c).readData = s.readData := rfl

/-! ### `begin` -/

@[simp] theorem State.begin_mux (s : State) (c : List Stmt) : (s.begin c).mux = s.mux := rfl
@[simp] theorem State.begin_scl (s : State) (c : List Stmt) : (s.begin c).scl = s.scl := rfl
@[simp] theorem State.begin_sda (s : State) (c : List Stmt) : (s.begin c).sda = s.sda := rfl
@[simp] theorem State.begin_res (s : State) (c : List Stmt) : (s.begin c).res = s.res := rfl
@[simp] theorem State.begin_timedOut (s : State) (c : List Stmt) : (s.begin c).timedOut = s.timedOut := rfl
@[simp] theorem State.begin_busy (s : State) (c : List Stmt) : (s.begin c).busy = true := rfl
@[simp] theorem State.begin_fault (s : State) (c : List Stmt) : (s.begin c).fault = s.fault := rfl
@[simp] theorem State.begin_err (s : State) (c : List Stmt) : (s.begin c).err = s.err := rfl
@[simp] theorem State.begin_lastCmd (s : State) (c : List Stmt) : (s.begin c).lastCmd = s.lastCmd := rfl
@[simp] theorem State.begin_seq (s : State) (c : List Stmt) : (s.begin c).seq = { Seq.idle with code := c } := rfl
@[simp] theorem State.begin_t (s : State) (c : List Stmt) : (s.begin c).t = s.t := rfl
@[simp] theorem State.begin_trace (s : State) (c : List Stmt) : (s.begin c).trace = s.trace := rfl
@[simp] theorem State.begin_params (s : State) (c : List Stmt) : (s.begin c).params = s.params := rfl
@[simp] theorem State.begin_env (s : State) (c : List Stmt) : (s.begin c).env = s.env := rfl
@[simp] theorem State.begin_host (s : State) (c : List Stmt) : (s.begin c).host = s.host := rfl
@[simp] theorem State.begin_readData (s : State) (c : List Stmt) : (s.begin c).readData = s.readData := rfl

/-! ### `finish` -/

@[simp] theorem State.finish_mux (s : State) : (s.finish).mux = s.mux := rfl
@[simp] theorem State.finish_scl (s : State) : (s.finish).scl = s.scl := rfl
@[simp] theorem State.finish_sda (s : State) : (s.finish).sda = s.sda := rfl
@[simp] theorem State.finish_res (s : State) : (s.finish).res = s.res := rfl
@[simp] theorem State.finish_timedOut (s : State) : (s.finish).timedOut = s.timedOut := rfl
@[simp] theorem State.finish_busy (s : State) : (s.finish).busy = false := rfl
@[simp] theorem State.finish_fault (s : State) : (s.finish).fault = s.fault := rfl
@[simp] theorem State.finish_err (s : State) : (s.finish).err = s.err := rfl
@[simp] theorem State.finish_lastCmd (s : State) : (s.finish).lastCmd = s.lastCmd := rfl
@[simp] theorem State.finish_seq (s : State) : (s.finish).seq = Seq.idle := rfl
@[simp] theorem State.finish_t (s : State) : (s.finish).t = s.t := rfl
@[simp] theorem State.finish_trace (s : State) : (s.finish).trace = s.trace := rfl
@[simp] theorem State.finish_params (s : State) : (s.finish).params = s.params := rfl
@[simp] theorem State.finish_env (s : State) : (s.finish).env = s.env := rfl
@[simp] theorem State.finish_host (s : State) : (s.finish).host = s.host := rfl
@[simp] theorem State.finish_readData (s : State) : (s.finish).readData = s.readData := rfl

/-! ### `setResult` -/

@[simp] theorem State.setResult_mux (s : State) (r timedOut : Bool) : (s.setResult r timedOut).mux = s.mux := rfl
@[simp] theorem State.setResult_scl (s : State) (r timedOut : Bool) : (s.setResult r timedOut).scl = s.scl := rfl
@[simp] theorem State.setResult_sda (s : State) (r timedOut : Bool) : (s.setResult r timedOut).sda = s.sda := rfl
@[simp] theorem State.setResult_res (s : State) (r timedOut : Bool) : (s.setResult r timedOut).res = r := rfl
@[simp] theorem State.setResult_timedOut (s : State) (r timedOut : Bool) : (s.setResult r timedOut).timedOut = timedOut :=
    rfl
@[simp] theorem State.setResult_busy (s : State) (r timedOut : Bool) : (s.setResult r timedOut).busy = s.busy := rfl
@[simp] theorem State.setResult_fault (s : State) (r timedOut : Bool) : (s.setResult r timedOut).fault = s.fault :=
    rfl
@[simp] theorem State.setResult_err (s : State) (r timedOut : Bool) : (s.setResult r timedOut).err = s.err := rfl
@[simp] theorem State.setResult_lastCmd (s : State) (r timedOut : Bool) : (s.setResult r timedOut).lastCmd = s.lastCmd :=
    rfl
@[simp] theorem State.setResult_seq (s : State) (r timedOut : Bool) : (s.setResult r timedOut).seq = s.seq := rfl
@[simp] theorem State.setResult_t (s : State) (r timedOut : Bool) : (s.setResult r timedOut).t = s.t := rfl
@[simp] theorem State.setResult_trace (s : State) (r timedOut : Bool) : (s.setResult r timedOut).trace = s.trace :=
    rfl
@[simp] theorem State.setResult_params (s : State) (r timedOut : Bool) : (s.setResult r timedOut).params = s.params :=
    rfl
@[simp] theorem State.setResult_env (s : State) (r timedOut : Bool) : (s.setResult r timedOut).env = s.env := rfl
@[simp] theorem State.setResult_host (s : State) (r timedOut : Bool) : (s.setResult r timedOut).host = s.host := rfl
@[simp] theorem State.setResult_readData (s : State) (r timedOut : Bool) : (s.setResult r timedOut).readData = s.readData :=
    rfl

/-! ### `setAckResult` -/

@[simp] theorem State.setAckResult_mux (s : State) : (s.setAckResult).mux = s.mux := rfl
@[simp] theorem State.setAckResult_scl (s : State) : (s.setAckResult).scl = s.scl := rfl
@[simp] theorem State.setAckResult_sda (s : State) : (s.setAckResult).sda = s.sda := rfl
@[simp] theorem State.setAckResult_res (s : State) : (s.setAckResult).res = s.seq.level := rfl
@[simp] theorem State.setAckResult_timedOut (s : State) : (s.setAckResult).timedOut = !s.seq.matched := rfl
@[simp] theorem State.setAckResult_busy (s : State) : (s.setAckResult).busy = s.busy := rfl
@[simp] theorem State.setAckResult_fault (s : State) : (s.setAckResult).fault = s.fault := rfl
@[simp] theorem State.setAckResult_err (s : State) : (s.setAckResult).err = s.err := rfl
@[simp] theorem State.setAckResult_lastCmd (s : State) : (s.setAckResult).lastCmd = s.lastCmd := rfl
@[simp] theorem State.setAckResult_seq (s : State) : (s.setAckResult).seq = s.seq := rfl
@[simp] theorem State.setAckResult_t (s : State) : (s.setAckResult).t = s.t := rfl
@[simp] theorem State.setAckResult_trace (s : State) : (s.setAckResult).trace = s.trace := rfl
@[simp] theorem State.setAckResult_params (s : State) : (s.setAckResult).params = s.params := rfl
@[simp] theorem State.setAckResult_env (s : State) : (s.setAckResult).env = s.env := rfl
@[simp] theorem State.setAckResult_host (s : State) : (s.setAckResult).host = s.host := rfl
@[simp] theorem State.setAckResult_readData (s : State) : (s.setAckResult).readData = s.readData := rfl

/-! ### `setBit` -/

@[simp] theorem State.setBit_mux (s : State) (i : Nat) : (s.setBit i).mux = s.mux := rfl
@[simp] theorem State.setBit_scl (s : State) (i : Nat) : (s.setBit i).scl = s.scl := rfl
@[simp] theorem State.setBit_sda (s : State) (i : Nat) : (s.setBit i).sda = s.sda := rfl
@[simp] theorem State.setBit_res (s : State) (i : Nat) : (s.setBit i).res = s.res := rfl
@[simp] theorem State.setBit_timedOut (s : State) (i : Nat) : (s.setBit i).timedOut = s.timedOut := rfl
@[simp] theorem State.setBit_busy (s : State) (i : Nat) : (s.setBit i).busy = s.busy := rfl
@[simp] theorem State.setBit_fault (s : State) (i : Nat) : (s.setBit i).fault = s.fault := rfl
@[simp] theorem State.setBit_err (s : State) (i : Nat) : (s.setBit i).err = s.err := rfl
@[simp] theorem State.setBit_lastCmd (s : State) (i : Nat) : (s.setBit i).lastCmd = s.lastCmd := rfl
@[simp] theorem State.setBit_seq (s : State) (i : Nat) : (s.setBit i).seq = { s.seq with bit := i } := rfl
@[simp] theorem State.setBit_t (s : State) (i : Nat) : (s.setBit i).t = s.t := rfl
@[simp] theorem State.setBit_trace (s : State) (i : Nat) : (s.setBit i).trace = s.trace := rfl
@[simp] theorem State.setBit_params (s : State) (i : Nat) : (s.setBit i).params = s.params := rfl
@[simp] theorem State.setBit_env (s : State) (i : Nat) : (s.setBit i).env = s.env := rfl
@[simp] theorem State.setBit_host (s : State) (i : Nat) : (s.setBit i).host = s.host := rfl
@[simp] theorem State.setBit_readData (s : State) (i : Nat) : (s.setBit i).readData = s.readData := rfl

/-! ### `setPoll` -/

@[simp] theorem State.setPoll_mux (s : State) (k : Nat) : (s.setPoll k).mux = s.mux := rfl
@[simp] theorem State.setPoll_scl (s : State) (k : Nat) : (s.setPoll k).scl = s.scl := rfl
@[simp] theorem State.setPoll_sda (s : State) (k : Nat) : (s.setPoll k).sda = s.sda := rfl
@[simp] theorem State.setPoll_res (s : State) (k : Nat) : (s.setPoll k).res = s.res := rfl
@[simp] theorem State.setPoll_timedOut (s : State) (k : Nat) : (s.setPoll k).timedOut = s.timedOut := rfl
@[simp] theorem State.setPoll_busy (s : State) (k : Nat) : (s.setPoll k).busy = s.busy := rfl
@[simp] theorem State.setPoll_fault (s : State) (k : Nat) : (s.setPoll k).fault = s.fault := rfl
@[simp] theorem State.setPoll_err (s : State) (k : Nat) : (s.setPoll k).err = s.err := rfl
@[simp] theorem State.setPoll_lastCmd (s : State) (k : Nat) : (s.setPoll k).lastCmd = s.lastCmd := rfl
@[simp] theorem State.setPoll_seq (s : State) (k : Nat) : (s.setPoll k).seq = { s.seq with poll := k } := rfl
@[simp] theorem State.setPoll_t (s : State) (k : Nat) : (s.setPoll k).t = s.t := rfl
@[simp] theorem State.setPoll_trace (s : State) (k : Nat) : (s.setPoll k).trace = s.trace := rfl
@[simp] theorem State.setPoll_params (s : State) (k : Nat) : (s.setPoll k).params = s.params := rfl
@[simp] theorem State.setPoll_env (s : State) (k : Nat) : (s.setPoll k).env = s.env := rfl
@[simp] theorem State.setPoll_host (s : State) (k : Nat) : (s.setPoll k).host = s.host := rfl
@[simp] theorem State.setPoll_readData (s : State) (k : Nat) : (s.setPoll k).readData = s.readData := rfl

/-! ### `setMatch` -/

@[simp] theorem State.setMatch_mux (s : State) (r matched : Bool) : (s.setMatch r matched).mux = s.mux := rfl
@[simp] theorem State.setMatch_scl (s : State) (r matched : Bool) : (s.setMatch r matched).scl = s.scl := rfl
@[simp] theorem State.setMatch_sda (s : State) (r matched : Bool) : (s.setMatch r matched).sda = s.sda := rfl
@[simp] theorem State.setMatch_res (s : State) (r matched : Bool) : (s.setMatch r matched).res = s.res := rfl
@[simp] theorem State.setMatch_timedOut (s : State) (r matched : Bool) : (s.setMatch r matched).timedOut = s.timedOut :=
    rfl
@[simp] theorem State.setMatch_busy (s : State) (r matched : Bool) : (s.setMatch r matched).busy = s.busy := rfl
@[simp] theorem State.setMatch_fault (s : State) (r matched : Bool) : (s.setMatch r matched).fault = s.fault := rfl
@[simp] theorem State.setMatch_err (s : State) (r matched : Bool) : (s.setMatch r matched).err = s.err := rfl
@[simp] theorem State.setMatch_lastCmd (s : State) (r matched : Bool) : (s.setMatch r matched).lastCmd = s.lastCmd :=
    rfl
@[simp] theorem State.setMatch_seq (s : State) (r matched : Bool) : (s.setMatch r matched).seq = { s.seq with level := r, matched := matched } :=
    rfl
@[simp] theorem State.setMatch_t (s : State) (r matched : Bool) : (s.setMatch r matched).t = s.t := rfl
@[simp] theorem State.setMatch_trace (s : State) (r matched : Bool) : (s.setMatch r matched).trace = s.trace := rfl
@[simp] theorem State.setMatch_params (s : State) (r matched : Bool) : (s.setMatch r matched).params = s.params := rfl
@[simp] theorem State.setMatch_env (s : State) (r matched : Bool) : (s.setMatch r matched).env = s.env := rfl
@[simp] theorem State.setMatch_host (s : State) (r matched : Bool) : (s.setMatch r matched).host = s.host := rfl
@[simp] theorem State.setMatch_readData (s : State) (r matched : Bool) : (s.setMatch r matched).readData = s.readData :=
    rfl

/-! ### `setStep` -/

@[simp] theorem State.setStep_mux (s : State) (k : Nat) : (s.setStep k).mux = s.mux := rfl
@[simp] theorem State.setStep_scl (s : State) (k : Nat) : (s.setStep k).scl = s.scl := rfl
@[simp] theorem State.setStep_sda (s : State) (k : Nat) : (s.setStep k).sda = s.sda := rfl
@[simp] theorem State.setStep_res (s : State) (k : Nat) : (s.setStep k).res = s.res := rfl
@[simp] theorem State.setStep_timedOut (s : State) (k : Nat) : (s.setStep k).timedOut = s.timedOut := rfl
@[simp] theorem State.setStep_busy (s : State) (k : Nat) : (s.setStep k).busy = s.busy := rfl
@[simp] theorem State.setStep_fault (s : State) (k : Nat) : (s.setStep k).fault = s.fault := rfl
@[simp] theorem State.setStep_err (s : State) (k : Nat) : (s.setStep k).err = s.err := rfl
@[simp] theorem State.setStep_lastCmd (s : State) (k : Nat) : (s.setStep k).lastCmd = s.lastCmd := rfl
@[simp] theorem State.setStep_seq (s : State) (k : Nat) : (s.setStep k).seq = { s.seq with step := k } := rfl
@[simp] theorem State.setStep_t (s : State) (k : Nat) : (s.setStep k).t = s.t := rfl
@[simp] theorem State.setStep_trace (s : State) (k : Nat) : (s.setStep k).trace = s.trace := rfl
@[simp] theorem State.setStep_params (s : State) (k : Nat) : (s.setStep k).params = s.params := rfl
@[simp] theorem State.setStep_env (s : State) (k : Nat) : (s.setStep k).env = s.env := rfl
@[simp] theorem State.setStep_host (s : State) (k : Nat) : (s.setStep k).host = s.host := rfl
@[simp] theorem State.setStep_readData (s : State) (k : Nat) : (s.setStep k).readData = s.readData := rfl

/-! ### `setCode` -/

@[simp] theorem State.setCode_mux (s : State) (c : List Stmt) : (s.setCode c).mux = s.mux := rfl
@[simp] theorem State.setCode_scl (s : State) (c : List Stmt) : (s.setCode c).scl = s.scl := rfl
@[simp] theorem State.setCode_sda (s : State) (c : List Stmt) : (s.setCode c).sda = s.sda := rfl
@[simp] theorem State.setCode_res (s : State) (c : List Stmt) : (s.setCode c).res = s.res := rfl
@[simp] theorem State.setCode_timedOut (s : State) (c : List Stmt) : (s.setCode c).timedOut = s.timedOut := rfl
@[simp] theorem State.setCode_busy (s : State) (c : List Stmt) : (s.setCode c).busy = s.busy := rfl
@[simp] theorem State.setCode_fault (s : State) (c : List Stmt) : (s.setCode c).fault = s.fault := rfl
@[simp] theorem State.setCode_err (s : State) (c : List Stmt) : (s.setCode c).err = s.err := rfl
@[simp] theorem State.setCode_lastCmd (s : State) (c : List Stmt) : (s.setCode c).lastCmd = s.lastCmd := rfl
@[simp] theorem State.setCode_seq (s : State) (c : List Stmt) : (s.setCode c).seq = { s.seq with code := c } := rfl
@[simp] theorem State.setCode_t (s : State) (c : List Stmt) : (s.setCode c).t = s.t := rfl
@[simp] theorem State.setCode_trace (s : State) (c : List Stmt) : (s.setCode c).trace = s.trace := rfl
@[simp] theorem State.setCode_params (s : State) (c : List Stmt) : (s.setCode c).params = s.params := rfl
@[simp] theorem State.setCode_env (s : State) (c : List Stmt) : (s.setCode c).env = s.env := rfl
@[simp] theorem State.setCode_host (s : State) (c : List Stmt) : (s.setCode c).host = s.host := rfl
@[simp] theorem State.setCode_readData (s : State) (c : List Stmt) : (s.setCode c).readData = s.readData := rfl

/-! ### `accept` -/

@[simp] theorem State.accept_mux (s : State) (w : Word) : (s.accept w).mux = s.mux := rfl
@[simp] theorem State.accept_scl (s : State) (w : Word) : (s.accept w).scl = s.scl := rfl
@[simp] theorem State.accept_sda (s : State) (w : Word) : (s.accept w).sda = s.sda := rfl
@[simp] theorem State.accept_res (s : State) (w : Word) : (s.accept w).res = s.res := rfl
@[simp] theorem State.accept_timedOut (s : State) (w : Word) : (s.accept w).timedOut = s.timedOut := rfl
@[simp] theorem State.accept_busy (s : State) (w : Word) : (s.accept w).busy = true := rfl
@[simp] theorem State.accept_fault (s : State) (w : Word) : (s.accept w).fault = s.fault := rfl
@[simp] theorem State.accept_err (s : State) (w : Word) : (s.accept w).err = s.err := rfl
@[simp] theorem State.accept_lastCmd (s : State) (w : Word) : (s.accept w).lastCmd = w := rfl
@[simp] theorem State.accept_seq (s : State) (w : Word) : (s.accept w).seq = s.seq := rfl
@[simp] theorem State.accept_t (s : State) (w : Word) : (s.accept w).t = s.t := rfl
@[simp] theorem State.accept_trace (s : State) (w : Word) : (s.accept w).trace = s.trace := rfl
@[simp] theorem State.accept_params (s : State) (w : Word) : (s.accept w).params = s.params := rfl
@[simp] theorem State.accept_env (s : State) (w : Word) : (s.accept w).env = s.env := rfl
@[simp] theorem State.accept_host (s : State) (w : Word) : (s.accept w).host = s.host := rfl
@[simp] theorem State.accept_readData (s : State) (w : Word) : (s.accept w).readData = s.readData := rfl

/-! ### `countDown` -/

@[simp] theorem State.countDown_mux (s : State) : (s.countDown).mux = s.mux := rfl
@[simp] theorem State.countDown_scl (s : State) : (s.countDown).scl = s.scl := rfl
@[simp] theorem State.countDown_sda (s : State) : (s.countDown).sda = s.sda := rfl
@[simp] theorem State.countDown_res (s : State) : (s.countDown).res = s.res := rfl
@[simp] theorem State.countDown_timedOut (s : State) : (s.countDown).timedOut = s.timedOut := rfl
@[simp] theorem State.countDown_busy (s : State) : (s.countDown).busy = s.busy := rfl
@[simp] theorem State.countDown_fault (s : State) : (s.countDown).fault = s.fault := rfl
@[simp] theorem State.countDown_err (s : State) : (s.countDown).err = s.err := rfl
@[simp] theorem State.countDown_lastCmd (s : State) : (s.countDown).lastCmd = s.lastCmd := rfl
@[simp] theorem State.countDown_seq (s : State) : (s.countDown).seq = s.seq := rfl
@[simp] theorem State.countDown_t (s : State) : (s.countDown).t = s.t := rfl
@[simp] theorem State.countDown_trace (s : State) : (s.countDown).trace = s.trace := rfl
@[simp] theorem State.countDown_params (s : State) : (s.countDown).params = s.params := rfl
@[simp] theorem State.countDown_env (s : State) : (s.countDown).env = s.env := rfl
@[simp] theorem State.countDown_readData (s : State) : (s.countDown).readData = s.readData := rfl

/-! ### `resetBlock` -/

@[simp] theorem State.resetBlock_mux (s : State) : (s.resetBlock).mux = .i2c := rfl
@[simp] theorem State.resetBlock_scl (s : State) : (s.resetBlock).scl = .outHigh := rfl
@[simp] theorem State.resetBlock_sda (s : State) : (s.resetBlock).sda = .outHigh := rfl
@[simp] theorem State.resetBlock_res (s : State) : (s.resetBlock).res = false := rfl
@[simp] theorem State.resetBlock_timedOut (s : State) : (s.resetBlock).timedOut = false := rfl
@[simp] theorem State.resetBlock_busy (s : State) : (s.resetBlock).busy = false := rfl
@[simp] theorem State.resetBlock_fault (s : State) : (s.resetBlock).fault = false := rfl
@[simp] theorem State.resetBlock_err (s : State) : (s.resetBlock).err = .none := rfl
@[simp] theorem State.resetBlock_lastCmd (s : State) : (s.resetBlock).lastCmd = 0x0000#16 := rfl
@[simp] theorem State.resetBlock_seq (s : State) : (s.resetBlock).seq = Seq.idle := rfl
@[simp] theorem State.resetBlock_t (s : State) : (s.resetBlock).t = 0 := rfl
@[simp] theorem State.resetBlock_trace (s : State) : (s.resetBlock).trace = [] := rfl
@[simp] theorem State.resetBlock_params (s : State) : (s.resetBlock).params = s.params := rfl
@[simp] theorem State.resetBlock_env (s : State) : (s.resetBlock).env = s.env := rfl
@[simp] theorem State.resetBlock_host (s : State) : (s.resetBlock).host = s.host := rfl
@[simp] theorem State.resetBlock_readData (s : State) : (s.resetBlock).readData = s.readData := rfl

end Sys2Proof.Machine
end

