-- ==== Sys2Proof/Laws/Ops.lean ====
section
/-!
SUPPORT. What each named operation can do, once: the lines after a write, a turn or a switch (R26, R28, R30), what every
primitive puts on the trace (R34, R35), and how pieces of trace join.
-/

namespace Sys2Proof.Machine

/-! ## Lines -/

@[simp] theorem State.line_scl (s : State) : s.line .scl = s.scl := rfl
@[simp] theorem State.line_sda (s : State) : s.line .sda = s.sda := rfl

@[simp] theorem State.setLine_line (s : State) (l : Line) (x : LineState) : (s.setLine l x).line l = x := by
  cases l <;> rfl

theorem State.setLine_line_other (s : State) {l l' : Line} (x : LineState) (h : l' ≠ l) :
    (s.setLine l x).line l' = s.line l' := by
  cases l <;> cases l' <;> first | rfl | exact absurd rfl h

@[simp] theorem State.setLat_line (s : State) (l : Line) (v : Bool) :
    (s.setLat l v).line l = { s.line l with lat := v } := by
  simp [State.setLat]

@[simp] theorem State.setDir_line (s : State) (l : Line) (d : Dir) :
    (s.setDir l d).line l = { s.line l with dir := d } := by
  simp [State.setDir]

@[simp] theorem State.lineWrite_line (s : State) (l : Line) (v : Bool) :
    (s.lineWrite l v).line l = { s.line l with lat := v } := by
  cases l <;> rfl

theorem State.lineWrite_line_other (s : State) {l l' : Line} (v : Bool) (h : l' ≠ l) :
    (s.lineWrite l v).line l' = s.line l' := by
  cases l <;> cases l' <;> first | rfl | exact absurd rfl h

@[simp] theorem State.lineWrite_scl_scl (s : State) (v : Bool) :
    (s.lineWrite .scl v).scl = { s.scl with lat := v } := rfl
@[simp] theorem State.lineWrite_scl_sda (s : State) (v : Bool) : (s.lineWrite .scl v).sda = s.sda := rfl
@[simp] theorem State.lineWrite_sda_sda (s : State) (v : Bool) :
    (s.lineWrite .sda v).sda = { s.sda with lat := v } := rfl
@[simp] theorem State.lineWrite_sda_scl (s : State) (v : Bool) : (s.lineWrite .sda v).scl = s.scl := rfl

@[simp] theorem State.setLat_scl_scl (s : State) (v : Bool) : (s.setLat .scl v).scl = { s.scl with lat := v } := rfl
@[simp] theorem State.setLat_scl_sda (s : State) (v : Bool) : (s.setLat .scl v).sda = s.sda := rfl
@[simp] theorem State.setLat_sda_sda (s : State) (v : Bool) : (s.setLat .sda v).sda = { s.sda with lat := v } := rfl
@[simp] theorem State.setLat_sda_scl (s : State) (v : Bool) : (s.setLat .sda v).scl = s.scl := rfl
@[simp] theorem State.setDir_scl_scl (s : State) (d : Dir) : (s.setDir .scl d).scl = { s.scl with dir := d } := rfl
@[simp] theorem State.setDir_scl_sda (s : State) (d : Dir) : (s.setDir .scl d).sda = s.sda := rfl
@[simp] theorem State.setDir_sda_sda (s : State) (d : Dir) : (s.setDir .sda d).sda = { s.sda with dir := d } := rfl
@[simp] theorem State.setDir_sda_scl (s : State) (d : Dir) : (s.setDir .sda d).scl = s.scl := rfl

/-- The latch a line has after its direction becomes OUT (R28): its own under RETAIN, a draw under DRAW. -/
def State.latchAfterOut (s : State) (l : Line) : Bool :=
  match s.params.latchOnOut with
  | .retain => (s.line l).lat
  | .draw => s.nextValue.getLsbD 0

@[simp] theorem State.turn_output_line (s : State) (l : Line) :
    (s.turn l .output).line l = { dir := .output, lat := s.latchAfterOut l } := by
  cases l <;> cases h : s.params.latchOnOut <;>
    simp [State.turn, State.latchOnOut, State.latchAfterOut, State.nextValue, h]

@[simp] theorem State.turn_input_line (s : State) (l : Line) :
    (s.turn l .input).line l = { s.line l with dir := .input } := by
  cases l <;> rfl

theorem State.turn_line_other (s : State) {l l' : Line} (d : Dir) (h : l' ≠ l) :
    (s.turn l d).line l' = s.line l' := by
  cases d <;> cases l <;> cases l' <;> first
    | exact absurd rfl h
    | rfl
    | (unfold State.turn State.latchOnOut; simp only [State.setDir_params]; split <;> rfl)

@[simp] theorem State.turn_output_scl_scl (s : State) :
    (s.turn .scl .output).scl = { dir := .output, lat := s.latchAfterOut .scl } :=
  s.turn_output_line .scl
@[simp] theorem State.turn_output_sda_sda (s : State) :
    (s.turn .sda .output).sda = { dir := .output, lat := s.latchAfterOut .sda } :=
  s.turn_output_line .sda
@[simp] theorem State.turn_input_scl_scl (s : State) :
    (s.turn .scl .input).scl = { s.scl with dir := .input } := rfl
@[simp] theorem State.turn_input_sda_sda (s : State) :
    (s.turn .sda .input).sda = { s.sda with dir := .input } := rfl
@[simp] theorem State.turn_scl_sda (s : State) (d : Dir) : (s.turn .scl d).sda = s.sda :=
  s.turn_line_other d (l := .scl) (l' := .sda) (by decide)
@[simp] theorem State.turn_sda_scl (s : State) (d : Dir) : (s.turn .sda d).scl = s.scl :=
  s.turn_line_other d (l := .sda) (l' := .scl) (by decide)

@[simp] theorem State.lineDir_scl (s : State) (l : Line) (d : Dir) :
    (s.lineDir l d).scl = (s.turn l d).scl := rfl
@[simp] theorem State.lineDir_sda (s : State) (l : Line) (d : Dir) :
    (s.lineDir l d).sda = (s.turn l d).sda := rfl

/-- A successful switch to GPIO makes both lines OUT (R30). -/
@[simp] theorem State.switchTo_gpio_scl (s : State) :
    (s.switchTo .gpio).scl = { dir := .output, lat := s.latchAfterOut .scl } := by
  simp only [State.switchTo, State.turn_sda_scl, State.turn_output_scl_scl]; rfl

@[simp] theorem State.switchTo_gpio_sda_dir (s : State) : (s.switchTo .gpio).sda.dir = .output := by
  simp [State.switchTo]

theorem State.switchTo_gpio_sda_retain (s : State) (h : s.params.latchOnOut = .retain) :
    (s.switchTo .gpio).sda = { dir := .output, lat := s.sda.lat } := by
  simp [State.switchTo, State.latchAfterOut, h]

@[simp] theorem State.switchTo_i2c_scl (s : State) : (s.switchTo .i2c).scl = s.scl := rfl
@[simp] theorem State.switchTo_i2c_sda (s : State) : (s.switchTo .i2c).sda = s.sda := rfl

@[simp] theorem State.takeSwitch_latchAfterOut (s : State) (l : Line) (h : s.params.latchOnOut = .retain) :
    s.takeSwitch.latchAfterOut l = (s.line l).lat := by
  cases l <;> simp [State.latchAfterOut, h]

/-- A switch that succeeds (R30). -/
theorem State.muxSet_ok (s : State) (m : Mux) (h : s.nextSwitch = true) :
    s.muxSet m = (s.takeSwitch.switchTo m).emit (.mux m true) := by
  simp [State.muxSet, h]

/-- A switch that fails (R30). -/
theorem State.muxSet_failed (s : State) (m : Mux) (h : s.nextSwitch = false) :
    s.muxSet m = (s.takeSwitch.drawPins).emit (.mux m false) := by
  simp [State.muxSet, h]

/-- The pin state drawn is the next undefined value (R30). -/
theorem State.drawPins_drawn (s : State) : pinsDrawnFrom s.nextValue s.drawPins :=
  ⟨rfl, rfl, rfl⟩

/-- With MUX_CAN_FAIL = false every switch succeeds (R30). -/
theorem State.nextSwitch_of_cannotFail (s : State) (h : s.params.muxCanFail = false) : s.nextSwitch = true := by
  simp [State.nextSwitch, h]

/-- Only a switch uses up an answer about a switch. -/
@[simp] theorem State.latchOnOut_switches (s : State) (l : Line) :
    (s.latchOnOut l).env.switches = s.env.switches := by
  unfold State.latchOnOut; split <;> simp

@[simp] theorem State.turn_switches (s : State) (l : Line) (d : Dir) :
    (s.turn l d).env.switches = s.env.switches := by
  cases d <;> simp [State.turn]

@[simp] theorem State.lineDir_switches (s : State) (l : Line) (d : Dir) :
    (s.lineDir l d).env.switches = s.env.switches := by
  simp [State.lineDir]

@[simp] theorem State.lineRead_switches (s : State) (l : Line) :
    (s.lineRead l).env.switches = s.env.switches := by
  unfold State.lineRead; split <;> simp

/-- The undefined values left after a change of direction to OUT: DRAW uses one up (R28). -/
def State.valuesAfterOut (s : State) : List Word :=
  match s.params.latchOnOut with
  | .retain => s.env.values
  | .draw => s.env.values.tail

theorem State.latchAfterOut_draw {s : State} {v : Word} {vs : List Word} (l : Line)
    (h : s.params.latchOnOut = .draw) (hv : s.env.values = v :: vs) : s.latchAfterOut l = v.getLsbD 0 := by
  simp [State.latchAfterOut, State.nextValue, h, hv]

@[simp] theorem State.turn_input_values (s : State) (l : Line) : (s.turn l .input).env.values = s.env.values := by
  simp [State.turn]

@[simp] theorem State.turn_output_values (s : State) (l : Line) :
    (s.turn l .output).env.values = s.valuesAfterOut := by
  cases h : s.params.latchOnOut <;> simp [State.turn, State.latchOnOut, State.valuesAfterOut, h]

@[simp] theorem State.lineDir_values (s : State) (l : Line) (d : Dir) :
    (s.lineDir l d).env.values = (s.turn l d).env.values := by
  simp [State.lineDir]

@[simp] theorem State.lineRead_values (s : State) (l : Line) : (s.lineRead l).env.values = s.env.values := by
  unfold State.lineRead; split <;> simp

@[simp] theorem State.takeSwitch_values (s : State) : s.takeSwitch.env.values = s.env.values := by
  unfold State.takeSwitch; split <;> rfl

@[simp] theorem State.drawPins_values (s : State) : s.drawPins.env.values = s.env.values.tail := rfl

/-! ## Checks -/

theorem State.requireGpio_ok {s : State} (h : s.mux = .gpio) : s.requireGpio = s := by
  simp [State.requireGpio, h]

theorem State.requireGpio_fails {s : State} (h : s.mux ≠ .gpio) : s.requireGpio = s.raise .modeErr := by
  cases hm : s.mux <;> simp_all [State.requireGpio]

theorem State.requireGpioOut_ok {s : State} (h : s.gpioOut) : s.requireGpioOut = s := by
  simp [State.requireGpioOut, h.1, h.2.1, h.2.2]

theorem State.requireGpioOut_fails {s : State} (h : ¬ s.gpioOut) : s.requireGpioOut = s.raise .modeErr := by
  unfold State.requireGpioOut
  split <;> first | rfl | exact absurd ⟨‹_›, ‹_›, ‹_›⟩ h

/-! ## Trace and time -/

theorem Timed.append {t0 t1 t2 : Nat} {a b : List (Nat × Event)} (ha : Timed t0 a t1) (hb : Timed t1 b t2) :
    Timed t0 (a ++ b) t2 := by
  induction a generalizing t0 with
  | nil => cases ha; exact hb
  | cons x rest ih =>
    obtain ⟨hx, t', hle, h'⟩ := ha
    exact ⟨hx, t', hle, ih h'⟩

theorem Emits.refl (s : State) : Emits s s [] :=
  ⟨[], by simp, rfl, rfl⟩

theorem Emits.trans {s t u : State} {a b : List Event} (h : Emits s t a) (h' : Emits t u b) :
    Emits s u (a ++ b) := by
  obtain ⟨n, ht, hn, hT⟩ := h
  obtain ⟨n', ht', hn', hT'⟩ := h'
  exact ⟨n ++ n', by simp [ht', ht], by simp [hn, hn'], hT.append hT'⟩

/-- States with the same trace and time are the same to `Emits`. -/
theorem Emits.of_eq {s t s' t' : State} {a : List Event} (h : Emits s t a) (hs : s'.trace = s.trace)
    (hst : s'.t = s.t) (ht : t'.trace = t.trace) (htt : t'.t = t.t) : Emits s' t' a := by
  obtain ⟨n, h1, h2, h3⟩ := h
  exact ⟨n, by rw [ht, hs, h1], h2, by rw [hst, htt]; exact h3⟩

/-- The end of every primitive (R34, R35): one event, at least its lower bound of time. -/
theorem State.emit_emits (s : State) (e : Event) : Emits s (s.emit e) [e] :=
  ⟨[(s.t, e)], by simp, rfl, rfl, s.t + e.minTime + s.nextSlack, by simp, by simp [Timed]⟩

theorem State.lineWrite_emits (s : State) (l : Line) (v : Bool) : Emits s (s.lineWrite l v) [.write l v] :=
  ((s.setLat l v).emit_emits _).of_eq (by simp) (by simp) rfl rfl

theorem State.lineRead_emits (s : State) (l : Line) : Emits s (s.lineRead l) [.read l (s.readLevel l)] := by
  unfold State.lineRead
  split
  · exact (s.countRead.emit_emits _).of_eq rfl rfl rfl rfl
  · exact (s.takeAnswer.countRead.emit_emits _).of_eq rfl rfl rfl rfl

theorem State.lineDir_emits (s : State) (l : Line) (d : Dir) : Emits s (s.lineDir l d) [.dir l d] :=
  ((s.turn l d).emit_emits _).of_eq (by simp) (by simp) rfl rfl

theorem State.delay_emits (s : State) (d : Nat) : Emits s (s.delay d) [.delay d] :=
  s.emit_emits _

theorem State.muxSet_emits (s : State) (m : Mux) : Emits s (s.muxSet m) [.mux m s.nextSwitch] := by
  cases h : s.nextSwitch
  · rw [s.muxSet_failed m h]
    exact ((s.takeSwitch.drawPins).emit_emits _).of_eq (by simp) (by simp) rfl rfl
  · rw [s.muxSet_ok m h]
    exact ((s.takeSwitch.switchTo m).emit_emits _).of_eq (by simp) (by simp) rfl rfl

/-- The least time of a piece of trace is the sum of its events' lower bounds. -/
theorem Timed.minTime_le {t0 t1 : Nat} {new : List (Nat × Event)} (h : Timed t0 new t1) :
    t0 + (new.map fun x => x.2.minTime).sum ≤ t1 := by
  induction new generalizing t0 with
  | nil => cases h; simp
  | cons x rest ih =>
    obtain ⟨_, t', hle, h'⟩ := h
    have := ih h'
    simp only [List.map_cons, List.sum_cons]
    omega

/-- A command that puts `evs` on the trace takes at least the sum of their lower bounds (R139). -/
theorem Emits.minTime_le {s t : State} {evs : List Event} (h : Emits s t evs) :
    s.t + (evs.map Event.minTime).sum ≤ t.t := by
  obtain ⟨n, _, rfl, hT⟩ := h
  simpa [List.map_map, Function.comp_def] using hT.minTime_le

/-! ## What a run leaves alone -/

theorem SameRest.refl (s : State) : SameRest s s :=
  ⟨rfl, rfl, rfl, rfl, rfl, rfl⟩

theorem SameRest.trans {s t u : State} (h : SameRest s t) (h' : SameRest t u) : SameRest s u := by
  obtain ⟨a, b, c, d, e, f⟩ := h
  obtain ⟨a', b', c', d', e', f'⟩ := h'
  exact ⟨a'.trans a, b'.trans b, c'.trans c, d'.trans d, e'.trans e, f'.trans f⟩

end Sys2Proof.Machine
end

