-- ==== Sys2Proof/Laws/PerInstr.lean ====
section
/-!
SUPPORT. Statements made instruction by instruction: the family F, about a command's encoding in the opcode table.
-/

namespace Sys2Proof.Laws.F

/-- A command's word is one of its own row of the opcode table (R72, R73). -/
def Statement (i : Instr) : Prop :=
  ∃ row ∈ opcodeTable, row.mnemonic = i.mnemonic ∧ encode i &&& row.mask = row.pattern

theorem start : Statement .start :=
  ⟨⟨"START", 0x2000#16, 0xFFFF#16⟩, by simp [opcodeTable], rfl, by decide⟩

theorem stop : Statement .stop :=
  ⟨⟨"STOP", 0x4000#16, 0xFFFF#16⟩, by simp [opcodeTable], rfl, by decide⟩

theorem send (v : Byte) (n : Nat) (a w : Bool) : Statement (.send v n a w) := by
  refine ⟨⟨"SEND", 0x6000#16, 0xE000#16⟩, by simp [opcodeTable], rfl, ?_⟩
  simp only [encode]
  generalize BitVec.ofNat 3 (n - 1) = m
  apply BitVec.eq_of_getLsbD_eq
  intro k hk
  simp only [BitVec.getLsbD_and, BitVec.getLsbD_append]
  interval_cases k <;> simp

theorem rack (a : Bool) : Statement (.rack a) :=
  ⟨⟨"RACK", 0x8000#16, 0xF7FF#16⟩, by simp [opcodeTable], rfl, by cases a <;> decide⟩

theorem store (da : BitVec 7) : Statement (.store da) := by
  refine ⟨⟨"STORE", 0xA000#16, 0xFF80#16⟩, by simp [opcodeTable], rfl, ?_⟩
  simp only [encode]
  apply BitVec.eq_of_getLsbD_eq
  intro k hk
  simp only [BitVec.getLsbD_and, BitVec.getLsbD_append]
  interval_cases k <;> simp

theorem ldir (l : Line) (d : Dir) : Statement (.ldir l d) :=
  ⟨⟨"LDIR", 0xC000#16, 0xF9FF#16⟩, by simp [opcodeTable], rfl, by cases l <;> cases d <;> decide⟩

theorem lwr (l : Line) (v : Bool) : Statement (.lwr l v) :=
  ⟨⟨"LWR", 0xC800#16, 0xF9FF#16⟩, by simp [opcodeTable], rfl, by cases l <;> cases v <;> decide⟩

theorem lrd (l : Line) : Statement (.lrd l) :=
  ⟨⟨"LRD", 0xD000#16, 0xFBFF#16⟩, by simp [opcodeTable], rfl, by cases l <;> decide⟩

theorem lmux (m : Mux) : Statement (.lmux m) :=
  ⟨⟨"LMUX", 0xD800#16, 0xFDFF#16⟩, by simp [opcodeTable], rfl, by cases m <;> decide⟩

theorem waitu (c : BitVec 12) : Statement (.waitu c) := by
  refine ⟨⟨"WAITU", 0xE000#16, 0xF000#16⟩, by simp [opcodeTable], rfl, ?_⟩
  simp only [encode]
  apply BitVec.eq_of_getLsbD_eq
  intro k hk
  simp only [BitVec.getLsbD_and, BitVec.getLsbD_append]
  interval_cases k <;> simp

theorem waitm (c : BitVec 12) : Statement (.waitm c) := by
  refine ⟨⟨"WAITM", 0xF000#16, 0xF000#16⟩, by simp [opcodeTable], rfl, ?_⟩
  simp only [encode]
  apply BitVec.eq_of_getLsbD_eq
  intro k hk
  simp only [BitVec.getLsbD_and, BitVec.getLsbD_append]
  interval_cases k <;> simp

end Sys2Proof.Laws.F
end

