-- ==== Sys2Proof/Laws/Sequencer.lean ====
section
/-!
SUPPORT. What a statement, a run of statements and one step of the sequencer can do: the fields none of them writes, how
FAULT, ERR and BUSY move, how the trace grows, and what the poll loop reads.
-/

namespace Sys2Proof.Machine

/-! ## Joining runs -/

@[simp] theorem State.andThen_busy {s : State} (k : State → State) (h : s.busy = true) : s.andThen k = k s := by
  simp [State.andThen, h]

@[simp] theorem State.andThen_ended {s : State} (k : State → State) (h : s.busy = false) : s.andThen k = s := by
  simp [State.andThen, h]

@[simp] theorem run_nil (s : State) : run [] s = s := rfl

@[simp] theorem State.andThen_nil (s : State) : s.andThen (run []) = s := by
  cases h : s.busy <;> simp [h]

theorem run_cons (st : Stmt) (rest : List Stmt) (s : State) :
    run (st :: rest) s = (doStmt st s).andThen (run rest) := rfl

/-- A run of two pieces is the run of the first, and then of the second unless a fault has ended the command. -/
theorem run_append {a b : List Stmt} {s : State} (h : s.busy = true) :
    run (a ++ b) s = (run a s).andThen (run b) := by
  induction a generalizing s with
  | nil => simp [h]
  | cons st rest ih =>
    simp only [List.cons_append, run_cons]
    cases hb : (doStmt st s).busy
    · simp [hb]
    · simp [hb, ih hb]

/-! ## Fields that no statement writes -/

/-- The poll loop keeps what its read and its wait keep. -/
theorem pollLoop_keeps {α : Type} (f : State → α) (hread : ∀ a s, f (pollOnce a s) = f s)
    (hdelay : ∀ (s : State) d, f (s.delay d) = f s) (a : Bool) (fuel : Nat) (s : State) :
    f (pollLoop a fuel s) = f s := by
  induction fuel generalizing s with
  | zero => rfl
  | succ n ih =>
    simp only [pollLoop]
    split
    · exact hread a s
    · rw [ih, hdelay, hread]

@[simp] theorem pollOnce_mux (a : Bool) (s : State) : (pollOnce a s).mux = s.mux := by simp [pollOnce]
@[simp] theorem pollOnce_scl (a : Bool) (s : State) : (pollOnce a s).scl = s.scl := by simp [pollOnce]
@[simp] theorem pollOnce_sda (a : Bool) (s : State) : (pollOnce a s).sda = s.sda := by simp [pollOnce]
@[simp] theorem pollOnce_res (a : Bool) (s : State) : (pollOnce a s).res = s.res := by simp [pollOnce]
@[simp] theorem pollOnce_timedOut (a : Bool) (s : State) : (pollOnce a s).timedOut = s.timedOut := by simp [pollOnce]
@[simp] theorem pollOnce_busy (a : Bool) (s : State) : (pollOnce a s).busy = s.busy := by simp [pollOnce]
@[simp] theorem pollOnce_fault (a : Bool) (s : State) : (pollOnce a s).fault = s.fault := by simp [pollOnce]
@[simp] theorem pollOnce_err (a : Bool) (s : State) : (pollOnce a s).err = s.err := by simp [pollOnce]
@[simp] theorem pollOnce_lastCmd (a : Bool) (s : State) : (pollOnce a s).lastCmd = s.lastCmd := by simp [pollOnce]
@[simp] theorem pollOnce_params (a : Bool) (s : State) : (pollOnce a s).params = s.params := by simp [pollOnce]
@[simp] theorem pollOnce_host (a : Bool) (s : State) : (pollOnce a s).host = s.host := by simp [pollOnce]
@[simp] theorem pollOnce_readData (a : Bool) (s : State) : (pollOnce a s).readData = s.readData := by simp [pollOnce]

@[simp] theorem pollOnce_seq (a : Bool) (s : State) :
    (pollOnce a s).seq =
      { s.seq with poll := s.seq.poll + 1, level := s.readLevel .sda, matched := s.readLevel .sda == a } := by
  simp [pollOnce]

@[simp] theorem pollLoop_mux (a : Bool) (n : Nat) (s : State) : (pollLoop a n s).mux = s.mux :=
  pollLoop_keeps State.mux (by simp) (by simp) a n s
@[simp] theorem pollLoop_scl (a : Bool) (n : Nat) (s : State) : (pollLoop a n s).scl = s.scl :=
  pollLoop_keeps State.scl (by simp) (by simp) a n s
@[simp] theorem pollLoop_sda (a : Bool) (n : Nat) (s : State) : (pollLoop a n s).sda = s.sda :=
  pollLoop_keeps State.sda (by simp) (by simp) a n s
@[simp] theorem pollLoop_res (a : Bool) (n : Nat) (s : State) : (pollLoop a n s).res = s.res :=
  pollLoop_keeps State.res (by simp) (by simp) a n s
@[simp] theorem pollLoop_timedOut (a : Bool) (n : Nat) (s : State) : (pollLoop a n s).timedOut = s.timedOut :=
  pollLoop_keeps State.timedOut (by simp) (by simp) a n s
@[simp] theorem pollLoop_busy (a : Bool) (n : Nat) (s : State) : (pollLoop a n s).busy = s.busy :=
  pollLoop_keeps State.busy (by simp) (by simp) a n s
@[simp] theorem pollLoop_fault (a : Bool) (n : Nat) (s : State) : (pollLoop a n s).fault = s.fault :=
  pollLoop_keeps State.fault (by simp) (by simp) a n s
@[simp] theorem pollLoop_err (a : Bool) (n : Nat) (s : State) : (pollLoop a n s).err = s.err :=
  pollLoop_keeps State.err (by simp) (by simp) a n s
@[simp] theorem pollLoop_lastCmd (a : Bool) (n : Nat) (s : State) : (pollLoop a n s).lastCmd = s.lastCmd :=
  pollLoop_keeps State.lastCmd (by simp) (by simp) a n s
@[simp] theorem pollLoop_params (a : Bool) (n : Nat) (s : State) : (pollLoop a n s).params = s.params :=
  pollLoop_keeps State.params (by simp) (by simp) a n s
@[simp] theorem pollLoop_host (a : Bool) (n : Nat) (s : State) : (pollLoop a n s).host = s.host :=
  pollLoop_keeps State.host (by simp) (by simp) a n s
@[simp] theorem pollLoop_readData (a : Bool) (n : Nat) (s : State) : (pollLoop a n s).readData = s.readData :=
  pollLoop_keeps State.readData (by simp) (by simp) a n s
@[simp] theorem pollLoop_step (a : Bool) (n : Nat) (s : State) : (pollLoop a n s).seq.step = s.seq.step :=
  pollLoop_keeps (fun s => s.seq.step) (by simp) (by simp) a n s

@[simp] theorem pollLoop_switches (a : Bool) (n : Nat) (s : State) :
    (pollLoop a n s).env.switches = s.env.switches :=
  pollLoop_keeps (fun s => s.env.switches) (by simp [pollOnce]) (by simp) a n s

@[simp] theorem pollLoop_values (a : Bool) (n : Nat) (s : State) : (pollLoop a n s).env.values = s.env.values :=
  pollLoop_keeps (fun s => s.env.values) (by simp [pollOnce]) (by simp) a n s

theorem State.requireGpio_of (s : State) : s.requireGpio = s ∨ s.requireGpio = s.raise .modeErr := by
  unfold State.requireGpio; split <;> simp

theorem State.requireGpioOut_of (s : State) : s.requireGpioOut = s ∨ s.requireGpioOut = s.raise .modeErr := by
  unfold State.requireGpioOut; split <;> simp

/-- No statement writes LASTCMD, the parameters, the host's agenda or its read data. -/
theorem doStmt_rest (st : Stmt) (s : State) :
    (doStmt st s).lastCmd = s.lastCmd ∧ (doStmt st s).params = s.params ∧ (doStmt st s).host = s.host ∧
      (doStmt st s).readData = s.readData := by
  cases st with
  | requireGpio => rcases s.requireGpio_of with h | h <;> simp [doStmt, h]
  | requireGpioOut => rcases s.requireGpioOut_of with h | h <;> simp [doStmt, h]
  | muxSet m =>
    simp only [doStmt, muxOrFault]
    split
    · simp
    · split <;> simp [restorePins]
  | _ => simp [doStmt, restorePins]

theorem run_rest (code : List Stmt) (s : State) :
    (run code s).lastCmd = s.lastCmd ∧ (run code s).params = s.params ∧ (run code s).host = s.host ∧
      (run code s).readData = s.readData := by
  induction code generalizing s with
  | nil => simp
  | cons st rest ih =>
    have h := doStmt_rest st s
    rw [run_cons]
    cases hb : (doStmt st s).busy
    · simpa [hb] using h
    · have h' := ih (doStmt st s)
      simp only [State.andThen_busy _ hb]
      exact ⟨h'.1.trans h.1, h'.2.1.trans h.2.1, h'.2.2.1.trans h.2.2.1, h'.2.2.2.trans h.2.2.2⟩

@[simp] theorem run_lastCmd (code : List Stmt) (s : State) : (run code s).lastCmd = s.lastCmd := (run_rest code s).1
@[simp] theorem run_params (code : List Stmt) (s : State) : (run code s).params = s.params := (run_rest code s).2.1
@[simp] theorem run_host (code : List Stmt) (s : State) : (run code s).host = s.host := (run_rest code s).2.2.1
@[simp] theorem run_readData (code : List Stmt) (s : State) : (run code s).readData = s.readData :=
  (run_rest code s).2.2.2

/-! ## FAULT, ERR and BUSY -/

/-- A statement either leaves BUSY, FAULT and ERR alone, or raises a fault that ends the command (R205). -/
inductive Moves (s t : State) : Prop where
  | goesOn (hb : t.busy = s.busy) (hf : t.fault = s.fault) (he : t.err = s.err)
  | raises (c : ErrCode) (hc : c ≠ .none) (hb : t.busy = false) (hf : t.fault = true)
      (he : t.err = if s.fault then s.err else c) (hq : t.seq = Seq.idle)

theorem Moves.raise {s t : State} (c : ErrCode) (hc : c ≠ .none) (hf : t.fault = s.fault) (he : t.err = s.err) :
    Moves s (t.raise c) :=
  .raises c hc rfl rfl (by simp [hf, he]) rfl

theorem doStmt_moves (st : Stmt) (s : State) : Moves s (doStmt st s) := by
  cases st with
  | requireGpio =>
    rcases s.requireGpio_of with h | h
    · exact .goesOn (by simp [doStmt, h]) (by simp [doStmt, h]) (by simp [doStmt, h])
    · simpa [doStmt, h] using Moves.raise (t := s) .modeErr (by decide) rfl rfl
  | requireGpioOut =>
    rcases s.requireGpioOut_of with h | h
    · exact .goesOn (by simp [doStmt, h]) (by simp [doStmt, h]) (by simp [doStmt, h])
    · simpa [doStmt, h] using Moves.raise (t := s) .modeErr (by decide) rfl rfl
  | muxSet m =>
    simp only [doStmt, muxOrFault]
    split
    · exact .goesOn (by simp) (by simp) (by simp)
    · split
      · exact Moves.raise .pinReconf (by decide) (by simp) (by simp)
      · exact Moves.raise .pinReconf (by decide) (by simp) (by simp)
  | restore => exact Moves.raise .pinReconf (by decide) (by simp) (by simp)
  | _ => exact .goesOn (by simp [doStmt]) (by simp [doStmt]) (by simp [doStmt])

theorem run_moves (code : List Stmt) (s : State) : Moves s (run code s) := by
  induction code generalizing s with
  | nil => exact .goesOn rfl rfl rfl
  | cons st rest ih =>
    rw [run_cons]
    cases hb : (doStmt st s).busy
    · simpa [hb] using doStmt_moves st s
    · simp only [State.andThen_busy _ hb]
      cases doStmt_moves st s with
      | raises c hc hb' => simp [hb] at hb'
      | goesOn h1 h2 h3 =>
        cases ih (doStmt st s) with
        | goesOn h1' h2' h3' => exact .goesOn (h1'.trans h1) (h2'.trans h2) (h3'.trans h3)
        | raises c hc hb' hf he hq => exact .raises c hc hb' hf (by rw [he, h2, h3]) hq

/-! ## The trace -/

/-- A fault entry takes no time and puts nothing on the trace (R205). -/
theorem State.raise_emits (s : State) (c : ErrCode) : Emits s (s.raise c) [] :=
  (Emits.refl s).of_eq rfl rfl rfl rfl

theorem pollOnce_emits (a : Bool) (s : State) : Emits s (pollOnce a s) [.read .sda (s.readLevel .sda)] :=
  ((s.setPoll (s.seq.poll + 1)).lineRead_emits .sda).of_eq rfl rfl rfl rfl

theorem pollLoop_grows (a : Bool) (n : Nat) (s : State) : ∃ evs, Emits s (pollLoop a n s) evs := by
  induction n generalizing s with
  | zero => exact ⟨[], .refl s⟩
  | succ n ih =>
    simp only [pollLoop]
    split
    · exact ⟨_, pollOnce_emits a s⟩
    · obtain ⟨evs, h⟩ := ih ((pollOnce a s).delay Config.hw.ackPollUs)
      exact ⟨_, ((pollOnce_emits a s).trans (State.delay_emits _ _)).trans h⟩

theorem restorePins_emits (s : State) : ∃ ok, Emits s (restorePins s) [.mux .i2c ok] :=
  ⟨_, (s.muxSet_emits .i2c).of_eq rfl rfl (by simp [restorePins]) (by simp [restorePins])⟩

/-- Every statement only adds to the trace, in time (R35, R61). -/
theorem doStmt_grows (st : Stmt) (s : State) : ∃ evs, Emits s (doStmt st s) evs := by
  cases st with
  | requireGpio =>
    refine ⟨[], ?_⟩
    rcases s.requireGpio_of with h | h
    · simpa [doStmt, h] using Emits.refl s
    · simpa [doStmt, h] using s.raise_emits .modeErr
  | requireGpioOut =>
    refine ⟨[], ?_⟩
    rcases s.requireGpioOut_of with h | h
    · simpa [doStmt, h] using Emits.refl s
    · simpa [doStmt, h] using s.raise_emits .modeErr
  | lineWrite l v => exact ⟨_, s.lineWrite_emits l v⟩
  | lineDir l d => exact ⟨_, s.lineDir_emits l d⟩
  | delay d => exact ⟨_, s.delay_emits d⟩
  | readResult l => exact ⟨_, (s.lineRead_emits l).of_eq rfl rfl rfl rfl⟩
  | muxSet m =>
    simp only [doStmt, muxOrFault]
    split
    · exact ⟨_, s.muxSet_emits m⟩
    · split
      · obtain ⟨ok, h⟩ := restorePins_emits (s.muxSet m)
        exact ⟨_, (s.muxSet_emits m).trans h⟩
      · exact ⟨_, (s.muxSet_emits m).of_eq rfl rfl rfl rfl⟩
  | restore => obtain ⟨ok, h⟩ := restorePins_emits s; exact ⟨_, h⟩
  | frameBit v n => exact ⟨_, s.lineWrite_emits _ _⟩
  | poll a => exact pollLoop_grows a _ s
  | _ => exact ⟨[], Emits.refl s⟩

theorem run_grows (code : List Stmt) (s : State) : ∃ evs, Emits s (run code s) evs := by
  induction code generalizing s with
  | nil => exact ⟨[], .refl s⟩
  | cons st rest ih =>
    rw [run_cons]
    obtain ⟨e1, h1⟩ := doStmt_grows st s
    cases hb : (doStmt st s).busy
    · exact ⟨e1, by simpa [hb] using h1⟩
    · obtain ⟨e2, h2⟩ := ih (doStmt st s)
      exact ⟨e1 ++ e2, by simpa [hb] using h1.trans h2⟩

/-- The event a plain statement puts on the trace, whatever the state; none for a statement that can raise, read or
depends on the state. -/
def Stmt.plainEvents : Stmt → Option (List Event)
  | .lineWrite l v => some [.write l v]
  | .lineDir l d => some [.dir l d]
  | .delay d => some [.delay d]
  | .bitIndex _ => some []
  | .pollReset => some []
  | .ackResult => some []
  | .result _ _ => some []
  | .storeStep _ => some []
  | .requireGpio => none
  | .requireGpioOut => none
  | .readResult _ => none
  | .muxSet _ => none
  | .restore => none
  | .frameBit _ _ => none
  | .poll _ => none

theorem doStmt_plain {st : Stmt} {evs : List Event} (h : st.plainEvents = some evs) (s : State) :
    (doStmt st s).busy = s.busy ∧ Emits s (doStmt st s) evs := by
  cases st <;> simp only [Stmt.plainEvents, Option.some.injEq, reduceCtorEq] at h <;> subst h
  · exact ⟨by simp [doStmt], s.lineWrite_emits _ _⟩
  · exact ⟨by simp [doStmt], s.lineDir_emits _ _⟩
  · exact ⟨by simp [doStmt], s.delay_emits _⟩
  all_goals exact ⟨by simp [doStmt], Emits.refl s⟩

/-- A plain statement at the head of a run. -/
theorem run_plain {st : Stmt} {rest : List Stmt} {s t : State} {evs evs' : List Event}
    (h : st.plainEvents = some evs) (hb : s.busy = true) (ht : Emits (doStmt st s) (run rest (doStmt st s)) evs')
    (heq : run (st :: rest) s = t) : Emits s t (evs ++ evs') := by
  obtain ⟨h1, h2⟩ := doStmt_plain h s
  subst heq
  rw [run_cons, State.andThen_busy _ (h1.trans hb)]
  exact h2.trans ht

/-! ## The poll loop (R134) -/

theorem State.readLevel_input {s : State} {l : Line} (h : (s.line l).dir = .input) :
    s.readLevel l = s.nextAnswer l := by
  simp [State.readLevel, h]

/-- The read takes the environment's next answer. -/
theorem State.lineRead_answers {s : State} {l : Line} (h : (s.line l).dir = .input) :
    (s.lineRead l).env.answers = s.env.answers.tail := by
  simp only [State.lineRead, h]
  simp

theorem pollOnce_answers (a : Bool) {s : State} (h : s.sda.dir = .input) :
    (pollOnce a s).env.answers = s.env.answers.tail := by
  have h' : ((s.setPoll (s.seq.poll + 1)).line .sda).dir = .input := by simpa using h
  simpa [pollOnce] using State.lineRead_answers h'

/-- One more answer used. -/
theorem answeredBy.cons {r : Bool} {rs answers : List Bool} (hr : ∀ b bs, answers = b :: bs → r = b)
    (h : answeredBy rs answers.tail) : answeredBy (r :: rs) answers := by
  cases answers with
  | nil => simp [answeredBy]
  | cons b bs =>
    have := hr b bs rfl
    simp only [answeredBy, List.tail_cons] at h
    simp [answeredBy, this, h]

theorem answeredBy.nil (answers : List Bool) : answeredBy [] answers := by
  simp [answeredBy]

/-- What the poll loop does with `n` iterations left, SDA being an input: some reads `rs`, the environment's answers, none
but the last matching, fewer than `n` only if the last matches; the last read and whether it matched are in the hidden
state. -/
theorem pollLoop_spec (a : Bool) (n : Nat) (s : State) (hn : 0 < n) (hin : s.sda.dir = .input) :
    ∃ rs : List Bool, rs ≠ [] ∧ rs.length ≤ n ∧ (∀ r ∈ rs.dropLast, r ≠ a) ∧
      (rs.length < n → rs.getLast? = some a) ∧ answeredBy rs s.env.answers ∧
      Emits s (pollLoop a n s) (pollEvents a rs) ∧
      rs.getLast? = some (pollLoop a n s).seq.level ∧
      (pollLoop a n s).seq.matched = ((pollLoop a n s).seq.level == a) := by
  induction n generalizing s with
  | zero => omega
  | succ n ih =>
    have hans : ∀ b bs, s.env.answers = b :: bs → s.readLevel .sda = b := by
      intro b bs hb
      rw [State.readLevel_input (l := .sda) hin]
      simp [State.nextAnswer, hb]
    cases hm : (s.readLevel .sda == a)
    · have hne : s.readLevel .sda ≠ a := by simpa using hm
      have hlevel : (!a) = s.readLevel .sda := by cases a <;> simp_all
      have hloop : pollLoop a (n + 1) s = pollLoop a n ((pollOnce a s).delay Config.hw.ackPollUs) := by
        simp [pollLoop, hm]
      rw [hloop]
      have hstep : Emits s ((pollOnce a s).delay Config.hw.ackPollUs) (pollEvents a [s.readLevel .sda]) := by
        simpa [pollEvents, hne] using (pollOnce_emits a s).trans (State.delay_emits _ _)
      cases n with
      | zero =>
        refine ⟨[s.readLevel .sda], by simp, by simp, by simp, by simp, answeredBy.cons hans (.nil _), ?_, ?_, ?_⟩
        · simpa [pollLoop] using hstep
        · simp [pollLoop]
        · simp [pollLoop]
      | succ n =>
        obtain ⟨rs, h0, h1, h2, h3, h3', h4, h5, h6⟩ :=
          ih ((pollOnce a s).delay Config.hw.ackPollUs) (by omega) (by simpa using hin)
        refine ⟨s.readLevel .sda :: rs, by simp, by simp; omega, ?_, ?_, ?_, ?_, ?_, h6⟩
        · rw [List.dropLast_cons_of_ne_nil h0]
          simpa [hne] using h2
        · intro hl
          rw [List.getLast?_cons_of_ne_nil h0]
          exact h3 (by simpa using hl)
        · refine answeredBy.cons hans ?_
          simpa [pollOnce_answers a hin] using h3'
        · have := hstep.trans h4
          simpa [pollEvents] using this
        · rw [List.getLast?_cons_of_ne_nil h0]
          exact h5
    · have heq : s.readLevel .sda = a := by simpa using hm
      have hloop : pollLoop a (n + 1) s = pollOnce a s := by simp [pollLoop, hm]
      rw [hloop]
      refine ⟨[s.readLevel .sda], by simp, by simp, by simp, by simp [heq], answeredBy.cons hans (.nil _), ?_,
        by simp, by simp⟩
      simpa [pollEvents, heq] using pollOnce_emits a s

end Sys2Proof.Machine
end

