-- ==== Sys2Proof/Laws/Signal.lean ====
section
/-!
SUPPORT. What the shared pieces of the signal layer do when run inside a command: a checked body, a run of plain
statements, SEND's bit loop (R133) and the ack cycle (R134).
-/

namespace Sys2Proof.Machine

/-- Every meaning is its body run as a whole command (R55). -/
theorem exec_eq_run (i : Instr) (s : State) : exec i s = .next (run (body i) (s.begin [])).finish := by
  cases i <;> rfl

/-- Between two points of a command that goes on: what no statement of the signal layer writes, besides the lines and the
result bits. -/
structure Steady (s t : State) : Prop where
  busy     : t.busy = s.busy
  mux      : t.mux = s.mux
  rest     : SameRest s t
  step     : t.seq.step = s.seq.step
  switches : t.env.switches = s.env.switches

theorem Steady.refl (s : State) : Steady s s :=
  ⟨rfl, rfl, .refl s, rfl, rfl⟩

theorem Steady.trans {s t u : State} (h : Steady s t) (h' : Steady t u) : Steady s u :=
  ⟨h'.busy.trans h.busy, h'.mux.trans h.mux, h.rest.trans h'.rest, h'.step.trans h.step, h'.switches.trans h.switches⟩

/-- An event of a piece of a command, seen from the command's first state to its last (R31, R55). -/
theorem Emits.ofCommand {s t : State} {evs : List Event} {c : List Stmt} (h : Emits (s.begin c) t evs) :
    Emits s t.finish evs :=
  h.of_eq rfl rfl rfl rfl

/-- A passed check changes nothing (R100). -/
theorem run_checked {rest : List Stmt} {s : State} (hb : s.busy = true) (h : s.gpioOut) :
    run (.requireGpioOut :: rest) s = run rest s := by
  simp [run_cons, doStmt, State.requireGpioOut_ok h, hb]

theorem run_checkedGpio {rest : List Stmt} {s : State} (hb : s.busy = true) (h : s.mux = .gpio) :
    run (.requireGpio :: rest) s = run rest s := by
  simp [run_cons, doStmt, State.requireGpio_ok h, hb]

/-- A check that fails ends the run with MODE_ERR (R100, R205). -/
theorem run_checkFails {rest : List Stmt} {s : State} (h : ¬ s.gpioOut) :
    run (.requireGpioOut :: rest) s = s.raise .modeErr := by
  rw [run_cons, doStmt, State.requireGpioOut_fails h, State.andThen_ended _ rfl]

theorem run_checkGpioFails {rest : List Stmt} {s : State} (h : s.mux ≠ .gpio) :
    run (.requireGpio :: rest) s = s.raise .modeErr := by
  rw [run_cons, doStmt, State.requireGpio_fails h, State.andThen_ended _ rfl]

/-- A run of plain statements puts their events on the trace and goes on. -/
theorem run_allPlain {code : List Stmt} {evs : List (List Event)} (h : code.map Stmt.plainEvents = evs.map some)
    {s : State} (hb : s.busy = true) : (run code s).busy = true ∧ Emits s (run code s) evs.flatten := by
  induction code generalizing s evs with
  | nil =>
    obtain rfl : evs = [] := by simpa using h.symm
    exact ⟨hb, .refl s⟩
  | cons st rest ih =>
    cases evs with
    | nil => simp at h
    | cons e es =>
      simp only [List.map_cons, List.cons.injEq] at h
      obtain ⟨h1, h2⟩ := doStmt_plain h.1 s
      have hb' := h1.trans hb
      obtain ⟨h3, h4⟩ := ih h.2 hb'
      simp only [run_cons, State.andThen_busy _ hb']
      exact ⟨h3, h2.trans h4⟩

/-- What SEND's bit loop keeps, does to the lines and puts on the trace, for a list `is` of bit indices (R133). -/
theorem run_bitPeriods (v : Byte) (n : Nat) (is : List Nat) {s : State} (hb : s.busy = true) :
    Steady s (run (is.flatMap (bitPeriod v n)) s) ∧
      (run (is.flatMap (bitPeriod v n)) s).res = s.res ∧
      (run (is.flatMap (bitPeriod v n)) s).timedOut = s.timedOut ∧
      (run (is.flatMap (bitPeriod v n)) s).env.answers = s.env.answers ∧
      (run (is.flatMap (bitPeriod v n)) s).scl =
        { s.scl with lat := if is = [] then s.scl.lat else false } ∧
      (run (is.flatMap (bitPeriod v n)) s).sda =
        { s.sda with lat := match is.getLast? with
            | some i => frameBit s.params.frameBits v n i
            | none => s.sda.lat } ∧
      Emits s (run (is.flatMap (bitPeriod v n)) s)
        (is.flatMap fun i => bitEvents (frameBit s.params.frameBits v n i)) := by
  induction is generalizing s with
  | nil => exact ⟨.refl s, rfl, rfl, rfl, rfl, rfl, .refl s⟩
  | cons i rest ih =>
    simp only [List.flatMap_cons]
    rw [run_append hb]
    have hbit : run (bitPeriod v n i) s =
        ((((((s.setBit i).lineWrite .sda (frameBit s.params.frameBits v n i)).delay 2).lineWrite .scl true).delay
          5).lineWrite .scl false).delay 3 := by
      simp [bitPeriod, run_cons, doStmt, hb]
    have hbusy : (run (bitPeriod v n i) s).busy = true := by simp [hbit, hb]
    rw [State.andThen_busy _ hbusy]
    have hE : Emits s (run (bitPeriod v n i) s) (bitEvents (frameBit s.params.frameBits v n i)) := by
      rw [hbit]
      exact (((((((Emits.refl s).of_eq rfl rfl (t' := s.setBit i) rfl rfl).trans (State.lineWrite_emits _ _ _)).trans
        (State.delay_emits _ _)).trans (State.lineWrite_emits _ _ _)).trans (State.delay_emits _ _)).trans
        (State.lineWrite_emits _ _ _)).trans (State.delay_emits _ _)
    obtain ⟨h1, h2, h3, h4, h5, h6, h7⟩ := ih hbusy
    have hS : Steady s (run (bitPeriod v n i) s) := by
      rw [hbit]
      exact ⟨by simp, by simp, by simp [SameRest], by simp, by simp⟩
    have hp : (run (bitPeriod v n i) s).params = s.params := by simp
    rw [hp] at h6 h7
    refine ⟨hS.trans h1, ?_, ?_, ?_, ?_, ?_, hE.trans h7⟩
    · rw [h2, hbit]; simp
    · rw [h3, hbit]; simp
    · rw [h4, hbit]; simp
    · rw [h5, hbit]; simp
    · rw [h6, hbit]
      cases rest with
      | nil => simp
      | cons j js =>
        cases hl : (j :: js).getLast? with
        | none => simp at hl
        | some k => simp [List.getLast?_cons_cons, hl]

/-- What the ack cycle keeps, reads, reports and puts on the trace (R134). -/
theorem run_ackCycle (a : Bool) {s : State} (hb : s.busy = true) :
    ∃ rs, ackReads a rs ∧ answeredBy rs s.env.answers ∧
      rs.getLast? = some (run (ackCycle a) s).res ∧
      (run (ackCycle a) s).timedOut = ((run (ackCycle a) s).res != a) ∧
      Steady s (run (ackCycle a) s) ∧
      (run (ackCycle a) s).scl = { s.scl with lat := false } ∧
      (run (ackCycle a) s).sda.dir = .output ∧
      (s.params.latchOnOut = .retain → (run (ackCycle a) s).sda.lat = s.sda.lat) ∧
      Emits s (run (ackCycle a) s) (ackEvents a rs) := by
  let u := ((((s.lineDir .sda .input).delay 2).lineWrite .scl true).delay 3).setPoll 0
  let p := pollLoop a 250 u
  have hrun : run (ackCycle a) s =
      ((((p.delay 2).lineWrite .scl false).delay 3).lineDir .sda .output).setAckResult := by
    simp [ackCycle, run_cons, doStmt, hb, p, u]
  have hu : Emits s u [.dir .sda .input, .delay 2, .write .scl true, .delay 3] :=
    (((((s.lineDir_emits .sda .input).trans (State.delay_emits _ _)).trans (State.lineWrite_emits _ _ _)).trans
      (State.delay_emits _ _)).of_eq rfl rfl rfl rfl)
  have huans : u.env.answers = s.env.answers := by
    simp [u, State.lineDir, State.turn, State.setDir, State.setLine]
  obtain ⟨rs, h0, h1, h2, h3, h4, h5, h6, h7⟩ := pollLoop_spec a 250 u (by omega) (by simp [u])
  rw [huans] at h4
  have hq : (run (ackCycle a) s).res = p.seq.level ∧ (run (ackCycle a) s).timedOut = !p.seq.matched := by
    rw [hrun]; simp
  refine ⟨rs, ⟨?_, h1, h2, h3⟩, h4, ?_, ?_, ?_, ?_, ?_, ?_, ?_⟩
  · exact Nat.one_le_iff_ne_zero.mpr (by simpa using h0)
  · rw [hq.1]; exact h6
  · rw [hq.1, hq.2]
    have : p.seq.matched = (p.seq.level == a) := h7
    rw [this]; rfl
  · rw [hrun]
    refine ⟨by simp [p, u], by simp [p, u], by simp [SameRest, p, u], by simp [p, u],
      by simp [p, u]⟩
  · rw [hrun]; simp [p, u]
  · rw [hrun]; simp
  · intro hr
    rw [hrun]
    simp [State.latchAfterOut, p, u, hr]
  · rw [hrun]
    have h8 : Emits p ((((p.delay 2).lineWrite .scl false).delay 3).lineDir .sda .output).setAckResult
        [.delay 2, .write .scl false, .delay 3, .dir .sda .output] :=
      (((((State.delay_emits _ _).trans (State.lineWrite_emits _ _ _)).trans (State.delay_emits _ _)).trans
        (State.lineDir_emits _ _ _)).of_eq rfl rfl rfl rfl)
    exact (hu.trans h5).trans h8

end Sys2Proof.Machine
end

