-- ==== Sys2Proof/Laws/Tick.lean ====
section
/-!
SUPPORT. What one step of the sequencer can do: the fields it never writes, how FAULT, ERR and BUSY move, and that it only
adds to the trace.
-/

namespace Sys2Proof.Machine

/-- The first step of a statement is the whole statement, but for a poll and a multiplexer switch. -/
theorem startStmt_whole (st : Stmt) (s : State) :
    startStmt st s = doStmt st s ∨ (∃ a, st = .poll a) ∨ ∃ m, st = .muxSet m := by
  cases st with
  | poll a => exact .inr (.inl ⟨a, rfl⟩)
  | muxSet m => exact .inr (.inr ⟨m, rfl⟩)
  | _ => exact .inl rfl

/-- A poll's first step is one read, and then what is left to run. -/
theorem startStmt_poll (a : Bool) (s : State) :
    startStmt (.poll a) s = pollOnce a s ∨ ∃ c, startStmt (.poll a) s = (pollOnce a s).setCode c := by
  simp only [startStmt]
  split
  · exact .inl rfl
  · exact .inr ⟨_, rfl⟩

/-- A switch's first step is the switch, and then what its failure asks for. -/
theorem startStmt_muxSet (m : Mux) (s : State) :
    startStmt (.muxSet m) s = s.muxSet m ∨ (∃ c, startStmt (.muxSet m) s = (s.muxSet m).setCode c) ∨
      startStmt (.muxSet m) s = (s.muxSet m).raise .pinReconf := by
  simp only [startStmt]
  split
  · exact .inl rfl
  · split
    · exact .inr (.inl ⟨_, rfl⟩)
    · exact .inr (.inr rfl)

theorem startStmt_rest (st : Stmt) (s : State) :
    (startStmt st s).lastCmd = s.lastCmd ∧ (startStmt st s).params = s.params ∧ (startStmt st s).host = s.host ∧
      (startStmt st s).readData = s.readData := by
  obtain h | ⟨a, rfl⟩ | ⟨m, rfl⟩ := startStmt_whole st s
  · rw [h]; exact doStmt_rest st s
  · obtain h | ⟨c, h⟩ := startStmt_poll a s <;> simp [h, State.setCode]
  · obtain h | ⟨c, h⟩ | h := startStmt_muxSet m s <;> simp [h, State.setCode]

theorem startStmt_moves (st : Stmt) (s : State) : Moves s (startStmt st s) := by
  obtain h | ⟨a, rfl⟩ | ⟨m, rfl⟩ := startStmt_whole st s
  · rw [h]; exact doStmt_moves st s
  · obtain h | ⟨c, h⟩ := startStmt_poll a s <;>
      exact .goesOn (by simp [h, State.setCode]) (by simp [h, State.setCode]) (by simp [h, State.setCode])
  · obtain h | ⟨c, h⟩ | h := startStmt_muxSet m s
    · exact .goesOn (by simp [h]) (by simp [h]) (by simp [h])
    · exact .goesOn (by simp [h, State.setCode]) (by simp [h, State.setCode]) (by simp [h, State.setCode])
    · rw [h]; exact Moves.raise .pinReconf (by decide) (by simp) (by simp)

theorem startStmt_grows (st : Stmt) (s : State) : ∃ evs, Emits s (startStmt st s) evs := by
  obtain h | ⟨a, rfl⟩ | ⟨m, rfl⟩ := startStmt_whole st s
  · rw [h]; exact doStmt_grows st s
  · refine ⟨_, (pollOnce_emits a s).of_eq rfl rfl ?_ ?_⟩ <;>
      obtain h | ⟨c, h⟩ := startStmt_poll a s <;> simp [h, State.setCode]
  · refine ⟨_, (s.muxSet_emits m).of_eq rfl rfl ?_ ?_⟩ <;>
      obtain h | ⟨c, h⟩ | h := startStmt_muxSet m s <;> simp [h, State.setCode]

/-- A step of the sequencer is the end of a command, or the first step of its next statement, or, idle, nothing. -/
theorem tick_cases (s : State) :
    (s.busy = false ∧ tick s = s) ∨ (s.busy = true ∧ s.seq.code = [] ∧ tick s = s.finish) ∨
      ∃ st rest, s.busy = true ∧ s.seq.code = st :: rest ∧ tick s = startStmt st (s.setCode rest) := by
  unfold tick
  cases hb : s.busy
  · simp
  · cases hc : s.seq.code with
    | nil => simp
    | cons st rest => simp

@[simp] theorem tick_rest (s : State) :
    (tick s).lastCmd = s.lastCmd ∧ (tick s).params = s.params ∧ (tick s).host = s.host ∧
      (tick s).readData = s.readData := by
  obtain ⟨_, h⟩ | ⟨_, _, h⟩ | ⟨st, rest, _, _, h⟩ := tick_cases s
  · simp [h]
  · simp [h, State.finish]
  · rw [h]; exact startStmt_rest st (s.setCode rest)

/-- Every step of the sequencer only adds to the trace (R35, R61). -/
theorem tick_grows (s : State) : ∃ evs, Emits s (tick s) evs := by
  obtain ⟨_, h⟩ | ⟨_, _, h⟩ | ⟨st, rest, _, _, h⟩ := tick_cases s
  · exact ⟨[], by rw [h]; exact .refl s⟩
  · exact ⟨[], by rw [h]; exact (Emits.refl s).of_eq rfl rfl rfl rfl⟩
  · obtain ⟨evs, he⟩ := startStmt_grows st (s.setCode rest)
    exact ⟨evs, by rw [h]; exact he.of_eq rfl rfl rfl rfl⟩

end Sys2Proof.Machine
end

