-- ==== Sys2Proof/Tests/Slice0.lean ====
section
/-!
SUPPORT. Tests of the model against spec/95_test_vectors.md and the rules' own examples, and one witness for the hypotheses
of each obligation that has any. Times are minimum times: the environment's slack is 0 throughout.
-/

open Sys2Proof Sys2Proof.Machine

namespace Sys2Proof.Tests

/-! ## Well-formedness -/

theorem test_send_without_bits_has_no_encoding : (Instr.send 0x02#8 0 false false).wf = false := by decide
theorem test_send_of_nine_bits_has_no_encoding : (Instr.send 0x02#8 9 false false).wf = false := by decide

/-! ## Decoding: words written out bit by bit from R71, or taken from the decode table of 95_test_vectors.md -/

/-- OP 011, W 1, A 0, NM1 111, V 00010000: R94's `SENDB 0x10`. -/
theorem test_decode_send : decode 0b0111011100010000#16 = .ok (.send 0x10#8 8 false true) := by decide
theorem test_decode_start : decode 0b0010000000000000#16 = .ok .start := by decide
theorem test_decode_stop : decode 0b0100000000000000#16 = .ok .stop := by decide
theorem test_decode_rack : decode 0b1000100000000000#16 = .ok (.rack true) := by decide
theorem test_decode_store : decode 0b1010000001011000#16 = .ok (.store 0x58#7) := by decide
/-- OP 110, SUB 00, L 1, X 0. -/
theorem test_decode_ldir : decode 0b1100010000000000#16 = .ok (.ldir .sda .input) := by decide
/-- OP 110, SUB 01, L 0, X 1. -/
theorem test_decode_lwr : decode 0b1100101000000000#16 = .ok (.lwr .scl true) := by decide
theorem test_decode_lrd : decode 0b1101010000000000#16 = .ok (.lrd .sda) := by decide
theorem test_decode_lmux : decode 0b1101101000000000#16 = .ok (.lmux .gpio) := by decide
theorem test_decode_waitu : decode 0b1110111111111111#16 = .ok (.waitu 4095#12) := by decide
theorem test_decode_waitm : decode 0b1111000000001010#16 = .ok (.waitm 10#12) := by decide

/-- The ILLEGAL words of the decode table. -/
theorem test_decode_illegal :
    [0x0000, 0x1FFF, 0x2001, 0x5000, 0x8001, 0x9000, 0xA080, 0xB000, 0xC401, 0xC900, 0xD200, 0xDC00].map
      (decodeTableWord 16) = List.replicate 12 none := by decide

/-- Programs P4 and P6's first words, a comment, and an operand out of range. -/
theorem test_assemble :
    assemble "LMUX GPIO ; step 1\nLDIR SDA, IN\nWAITU 2\nHEAD" = some [0xDA00#16, 0xC400#16, 0xE002#16, 0x6202#16] ∧
      assemble "SEND 256, 8, 0, 0" = none := by decide

/-! ## States -/

/-- `s` with the environment's answers and switch outcomes listed, and every primitive as quick as it can be. -/
def prompt (s : State) (answers switches : List Bool) : State :=
  { s with env :=
      { answers := answers, switches := switches, slack := List.replicate 60 0, values := [], reads := 0, draws := 0 } }

/-- A GPIO state with given lines. -/
def gpioWith (scl sda : LineState) : State :=
  { State.reset with mux := .gpio, scl := scl, sda := sda }

/-- Bus state G0 of 95_test_vectors.md. -/
def busG0 : State :=
  gpioWith ⟨.output, false⟩ ⟨.output, false⟩

/-- Both lines driven HIGH. -/
def busIdle : State :=
  gpioWith .outHigh .outHigh

/-- A faulted block: V-STORE-8's start state. -/
def faultedBlock : State :=
  { State.reset with fault := true, err := .modeErr, lastCmd := 0x2000#16 }

/-- A block that runs a START. -/
def busyBlock : State :=
  { busIdle with busy := true, seq := { Seq.idle with code := startBody } }

/-- `s` with undefined values listed. -/
def drawing (s : State) (values : List Word) : State :=
  { s with env := { s.env with values := values } }

def parameters (sel : Config.FrameBitSelect) (latch : Config.LatchOnDirOut) (fails : Bool) (s : State) : State :=
  { s with params := ⟨sel, latch, fails⟩ }

def withHost (s : State) (op : HostOp) (k : Nat) : State :=
  { s with host := [⟨op, k⟩] }

/-- The next state; `s` itself if the step does not answer one. -/
def nextOf (s : State) : Host.Outcome State Fault Refusal → State
  | .next t => t
  | .fault _ => s
  | .refused _ => s

def after (i : Instr) (s : State) : State :=
  nextOf s (exec i s)

def stepped (s : State) : State :=
  nextOf s (step s)

/-! ## Single commands -/

/-- V-START-1. -/
theorem test_start :
    (after .start (prompt busIdle [] [])).trace =
      [(0, .write .scl true), (0, .write .sda true), (0, .delay 2), (2, .write .sda false), (2, .delay 3),
        (5, .write .scl false), (5, .delay 5)] := by decide

/-- V-START-3 and V-HOST-4: STATUS is 0x0028. -/
theorem test_start_in_i2c_mode :
    (after .start State.reset).statusWord = 0x0028#16 ∧ (after .start State.reset).trace = [] := by decide

/-- V-STOP-1. -/
theorem test_stop :
    (after .stop (prompt { busG0 with t := 10 } [] [])).trace =
        [(10, .write .sda false), (10, .delay 2), (12, .write .scl true), (12, .delay 5), (17, .write .sda true),
          (17, .delay 5)] ∧
      (after .stop (prompt { busG0 with t := 10 } [] [])).sda = ⟨.output, true⟩ := by decide

/-- V-SEND-8. -/
theorem test_send_with_ack :
    (after (.send 0xC0#8 2 false true) (prompt busG0 [false] [])).trace =
      [(0, .write .sda true), (0, .delay 2), (2, .write .scl true), (2, .delay 5), (7, .write .scl false), (7, .delay 3),
        (10, .write .sda true), (10, .delay 2), (12, .write .scl true), (12, .delay 5), (17, .write .scl false),
        (17, .delay 3), (20, .dir .sda .input), (20, .delay 2), (22, .write .scl true), (22, .delay 3),
        (25, .read .sda false), (25, .delay 2), (27, .write .scl false), (27, .delay 3), (30, .dir .sda .output)] := by
  decide

/-- V-SEND-3 under LOW: the head's bits are 0, 1, 0. -/
theorem test_send_head_low :
    ((after (.send 0x02#8 3 false false) (parameters .low .retain true (prompt busG0 [] []))).trace.map Prod.snd).filter
        (fun e => e == .write .sda true || e == .write .sda false) =
      [.write .sda false, .write .sda true, .write .sda false, .write .sda false] := by decide

/-- V-RACK-1. -/
theorem test_rack :
    (after (.rack true) (prompt busG0 [false, false, true] [])).trace =
        [(0, .dir .sda .input), (0, .delay 2), (2, .write .scl true), (2, .delay 3), (5, .read .sda false), (5, .delay 1),
          (6, .read .sda false), (6, .delay 1), (7, .read .sda true), (7, .delay 2), (9, .write .scl false),
          (9, .delay 3), (12, .dir .sda .output)] ∧
      (after (.rack true) (prompt busG0 [false, false, true] [])).statusWord = 0x0041#16 := by decide

/-- V-LDIR-1. -/
theorem test_ldir :
    (after (.ldir .sda .input) (prompt busIdle [] [])).sda = ⟨.input, true⟩ ∧
      (after (.ldir .sda .input) (prompt busIdle [] [])).trace = [(0, .dir .sda .input)] := by decide

/-- V-LWR-2: a line that is IN takes the latch only. -/
theorem test_lwr_input :
    (after (.lwr .sda false) (prompt (gpioWith .outHigh ⟨.input, true⟩) [] [])).sda = ⟨.input, false⟩ := by decide

/-- V-LRD-1. -/
theorem test_lrd_input :
    (after (.lrd .sda) (prompt (gpioWith .outHigh ⟨.input, true⟩) [false] [])).trace = [(0, .read .sda false)] := by
  decide

/-- V-LRD-2: an OUT line reads its latch; RES and TO are cleared. -/
theorem test_lrd_output :
    (after (.lrd .scl) { busG0 with res := true, timedOut := true }).statusWord = 0x0040#16 := by decide

/-- V-LMUX-2: the switch to GPIO makes an IN line OUT and keeps its latch. -/
theorem test_lmux_gpio :
    (after (.lmux .gpio) (prompt (gpioWith .outHigh ⟨.input, false⟩) [] [true])).sda = ⟨.output, false⟩ := by decide

/-- V-LMUX-4. -/
theorem test_lmux_fails :
    (after (.lmux .gpio) (prompt State.reset [] [false])).err = .pinReconf ∧
      (after (.lmux .gpio) (prompt State.reset [] [false])).trace = [(0, .mux .gpio false)] := by decide

/-- V-LMUX-4's pin state is a draw: here GPIO, SCL (IN, 1), SDA (OUT, 0). -/
theorem test_lmux_failure_draws_the_pins :
    (after (.lmux .i2c) (drawing (prompt State.reset [] [false]) [0b01101#16])).linesWord = 0x0009#16 ∧
      (after (.lmux .i2c) (drawing (prompt State.reset [] [false]) [0b01101#16])).mux = .gpio := by decide

/-- V-WAIT-1. -/
theorem test_waitu :
    (after (.waitu 5) (prompt { State.reset with t := 100 } [] [])).trace = [(100, .delay 5)] ∧
      (after (.waitu 5) (prompt { State.reset with t := 100 } [] [])).t = 105 := by decide

/-- V-WAIT-3. -/
theorem test_waitm : (after (.waitm 10) (prompt State.reset [] [])).trace = [(0, .delay 10000)] := by decide

/-- V-STORE-3: the first switch fails, the restoration succeeds. -/
theorem test_store_first_switch_fails :
    (after (.store 0x58) (prompt State.reset [] [false, true])).trace = [(0, .mux .gpio false), (0, .mux .i2c true)] ∧
      (after (.store 0x58) (prompt State.reset [] [false, true])).err = .pinReconf := by decide

/-- V-STORE-2: the address bytes. -/
theorem test_store_address_bytes :
    [0x58#7, 0x7F#7, 0x00#7, 0x01#7].map addressByte = [0xB0#8, 0xFE#8, 0x00#8, 0x02#8] := by decide

/-! ## The host interface -/

/-- V-HOST-1, V-HOST-2 and V-HOST-8. -/
theorem test_host_reads_after_reset :
    [1, 2, 5].map (fun off => (stepped (withHost State.reset (.read off) 0)).readData) =
      [some 0x0000#16, some 0x000F#16, some 0x0000#16] := by decide

/-- V-HOST-6. -/
theorem test_host_reads_lines :
    (stepped (withHost (gpioWith ⟨.output, false⟩ ⟨.input, true⟩) (.read 2) 0)).readData = some 0x0006#16 := by decide

/-- R202: the all-zero word raises ILLEGAL_CMD and is in LASTCMD. -/
theorem test_illegal_word :
    (stepped (withHost busIdle (.write 0 0x0000) 0)).statusWord = 0x0058#16 ∧
      (stepped (withHost busIdle (.write 0 0x2001) 0)).lastCmd = 0x2001#16 := by decide

/-- V-STORE-8: a command after a fault is discarded. -/
theorem test_command_after_fault :
    stepped (withHost faultedBlock (.write 0 0xA058) 0) = faultedBlock := by decide

/-- R254: a STORE that is accepted and has not made its first primitive is in execution, and a START is no STORE. -/
theorem test_reset_duty :
    HostOp.reset.keepsDuty (stepped (withHost State.reset (.post 0 0xA058) 0)) = false ∧
      HostOp.reset.keepsDuty busyBlock = true ∧ (HostOp.read 1).keepsDuty busyBlock = true := by decide

/-- R258: START again after the switch to GPIO has kept LOW latches does not begin from the idle bus. -/
theorem test_frames_duty :
    framesFromIdle [.start, .lmux .gpio, .start] (prompt busIdle [] [true]) = false ∧
      framesFromIdle [.start, .stop, .start] (prompt busIdle [] []) = true := by decide

/-- V-HOST-9, in P5's end state. -/
theorem test_host_reads_lastcmd :
    (stepped (withHost faultedBlock (.read 3) 0)).readData = some 0x2000#16 := by decide

/-- R252: after a PIN_RECONF a drawn MUX = I2C gives no leave to use the I2C peripheral; after reset there is leave. -/
theorem test_pins_undefined :
    mayUsePeripheral { State.reset with fault := true, err := .pinReconf }.statusWord = false ∧
      mayUsePeripheral State.reset.statusWord = true ∧ mayUsePeripheral busIdle.statusWord = false := by decide

/-! ## Witnesses: the hypotheses of each obligation can be met -/

theorem test_witness_wf : (Instr.send 0xFF#8 1 true true).wf = true ∧ (Instr.send 0x00#8 8 false false).wf = true := by
  decide

theorem test_witness_legal_word : decode 0xFFFF#16 = .ok (.waitm 4095#12) := by decide

/-- For IllegalWordsAreTheReservedOnes: a write, and a write not waited for. -/
theorem test_witness_illegal_word :
    (withHost busIdle (.write 0 0x9000) 0).host = ⟨.write 0 0x9000, 0⟩ :: [] ∧
      (withHost busIdle (.post 0 0x1FFF) 3).host = ⟨.post 0 0x1FFF, 3⟩ :: [] ∧ busIdle.busy = false ∧
      busIdle.fault = false ∧ (∃ e, decode 0x9000#16 = .error e) ∧ ∃ e, decode 0x1FFF#16 = .error e :=
  ⟨rfl, rfl, rfl, rfl, ⟨_, rfl⟩, ⟨_, rfl⟩⟩

/-- For StepRunsWrittenCommand, PostedCommandIsAccepted and the second part of CommandHeldWhileBusy. -/
theorem test_witness_accepted :
    (withHost busIdle (.write 0 0x2000) 7).host = ⟨.write 0 0x2000, 7⟩ :: [] ∧
      (withHost busIdle (.post 0 0x2000) 7).host = ⟨.post 0 0x2000, 7⟩ :: [] ∧
      (withHost busIdle (.write 0 0x2000) 7).busy = false ∧ (withHost busIdle (.write 0 0x2000) 7).fault = false ∧
      (withHost busIdle (.post 0 0x2000) 7).busy = false ∧ (withHost busIdle (.post 0 0x2000) 7).fault = false ∧
      decode 0x2000#16 = .ok .start := by decide

theorem test_witness_discarded :
    (withHost faultedBlock (.write 0 0xDA00) 0).host = ⟨.write 0 0xDA00, 0⟩ :: [] ∧
      (withHost faultedBlock (.write 0 0xDA00) 0).fault = true ∧
      (withHost faultedBlock (.write 0 0xDA00) 0).busy = false := by decide

/-- For CommandHeldWhileBusy's first part, due at once and due later. -/
theorem test_witness_held :
    (withHost busyBlock (.write 0 0x4000) 0).host = ⟨.write 0 0x4000, 0⟩ :: [] ∧
      (withHost busyBlock (.post 0 0x4000) 2).host = ⟨.post 0 0x4000, 2⟩ :: [] ∧
      (withHost busyBlock (.write 0 0x4000) 0).busy = true ∧ (withHost busyBlock (.post 0 0x4000) 2).busy = true := by
  decide

/-- For SequencerStepsAgreeWithExec. -/
theorem test_witness_silent_host : State.reset.host = [] := rfl

/-- For ResetGivesTheResetState: on an idle block, and in the middle of a command. -/
theorem test_witness_reset :
    ((withHost busIdle .reset 4).host = ⟨.reset, 4⟩ :: [] ∧ (withHost busIdle .reset 4).busy = false) ∧
      (withHost busyBlock .reset 0).host = ⟨.reset, 0⟩ :: [] ∧ (withHost busyBlock .reset 0).busy = true := by decide

/-- For StatusReadShowsTheFields, LinesReadShowsTheLines and LastCmdReadShowsTheWord. -/
theorem test_witness_idle_reads :
    (withHost busIdle (.read 1) 0).host = ⟨.read 1, 0⟩ :: [] ∧ (withHost busIdle (.read 2) 0).host = ⟨.read 2, 0⟩ :: [] ∧
      (withHost busIdle (.read 1) 0).busy = false ∧ (withHost busIdle (.read 2) 0).busy = false ∧
      (withHost faultedBlock (.read 3) 2).host = ⟨.read 3, 2⟩ :: [] ∧ (withHost faultedBlock (.read 3) 2).busy = false ∧
      (withHost busyBlock (.write 1 0xFFFF) 0).host = ⟨.write 1 0xFFFF, 0⟩ :: [] := by decide

/-- For ReadsWhileBusy: each of its clauses' offsets. -/
theorem test_witness_busy_reads :
    [1, 3, 0, 4].all (fun off =>
      decide ((withHost busyBlock (.read off) 0).host = ⟨.read off, 0⟩ :: []) &&
        (withHost busyBlock (.read off) 0).busy) = true := by decide

/-- For OtherRegistersIgnoreWritesAndReadZero: writes to 1, 3 and 4, reads of 0 and 4, idle and busy. -/
theorem test_witness_other_registers :
    ([1, 3, 4].all fun off => decide (off ≠ 0) &&
        decide ((withHost busIdle (.write off 0x1234) 9).host = ⟨.write off 0x1234, 9⟩ :: [])) = true ∧
      ([0, 4].all fun off => decide (off = 0 ∨ 3 < off) &&
        decide ((withHost busyBlock (.read off) 0).host = ⟨.read off, 0⟩ :: [])) = true ∧
      (withHost busIdle (.read 0) 9).busy = false := by decide

theorem test_witness_partial_access :
    (withHost busyBlock .partialAccess 0).host = ⟨.partialAccess, 0⟩ :: [] ∧
      (withHost busIdle .partialAccess 1).host = ⟨.partialAccess, 1⟩ :: [] ∧
      (withHost busIdle .partialAccess 1).busy = false := by decide

theorem faultedBlock_inv : faultedBlock.Inv :=
  ⟨by decide, by decide, by decide, List.Pairwise.nil, by simp [faultedBlock, State.reset]⟩

/-- For StepKeepsTheInvariant, OnlyResetClearsAFault, FaultedBlockStandsStill, ParametersAreNeverWritten, TraceOnlyGrows. -/
theorem test_witness_faulted_step :
    faultedBlock.Inv ∧ faultedBlock.fault = true ∧ step faultedBlock = .next faultedBlock :=
  ⟨faultedBlock_inv, rfl, rfl⟩

/-- For LastCmdIsTheAcceptedWord. -/
theorem test_witness_last_cmd :
    ∃ t, step (withHost State.reset (.write 0 0xE000) 0) = .next t ∧
      t.lastCmd ≠ (withHost State.reset (.write 0 0xE000) 0).lastCmd :=
  ⟨_, rfl, by decide⟩

/-- For LinesStayOutBetweenCommands and CommandsTakeAtLeastTheirTime: a RACK that raises nothing. -/
theorem test_witness_lines_out :
    busG0.linesOut ∧ (∀ l, Instr.rack true ≠ .ldir l .input) ∧ (Instr.rack true).wf = true ∧
      ∃ t, exec (.rack true) (prompt busG0 [true] []) = .next t ∧ t.fault = false :=
  ⟨⟨rfl, rfl⟩, by simp, rfl, _, rfl, by decide⟩

/-- For CommandsIgnoreTheHost. -/
theorem test_witness_exec_answers : ∃ t, exec (.store 0x58) State.reset = .next t :=
  ⟨_, exec_eq_run _ _⟩

/-- For ModeErrorChangesNothingElse and the second parts of the line and signal statements: I2C mode, and a line IN. -/
theorem test_witness_not_ready :
    ¬ ready (.lrd .sda) State.reset ∧ ¬ ready (.ldir .scl .output) State.reset ∧ ¬ ready (.lwr .scl true) State.reset ∧
      ¬ ready .start State.reset ∧ ¬ ready .stop (gpioWith .outHigh ⟨.input, true⟩) ∧
      ¬ ready (.send 0#8 1 false false) (gpioWith ⟨.input, true⟩ .outHigh) ∧ ¬ ready (.rack true) State.reset := by
  simp [ready, State.gpioOut, gpioWith, State.reset, LineState.outHigh]

/-- For ReadyCommandsRaiseOnlyPinReconf: both its outcomes. -/
theorem test_witness_ready :
    ready (.lmux .gpio) State.reset ∧ State.reset.fault = false ∧
      (after (.lmux .gpio) (prompt State.reset [] [true])).fault = false ∧
      (after (.lmux .gpio) (prompt State.reset [] [false])).fault = true :=
  ⟨trivial, rfl, by decide, by decide⟩

/-- For LdirSetsTheDirection, LwrSetsTheLatch and LrdReturnsTheLevel, in both directions of the line. -/
theorem test_witness_gpio :
    busIdle.mux = .gpio ∧ busIdle.sda.dir = .output ∧ (gpioWith .outHigh ⟨.input, true⟩).mux = .gpio ∧
      (gpioWith .outHigh ⟨.input, true⟩).sda.dir = .input ∧ busIdle.params.latchOnOut = .retain := by decide

/-- For LmuxSwitchesThePins, LmuxFailureRaisesPinReconf and StoreStepOneFailure. -/
theorem test_witness_switches :
    (prompt State.reset [] [true]).nextSwitch = true ∧ (prompt State.reset [] [false]).nextSwitch = false ∧
      (parameters .top .draw false State.reset).nextSwitch = true := by decide

/-- For the statements about START, STOP, SEND and RACK, at the least and the greatest bit count. -/
theorem test_witness_gpio_out :
    busG0.gpioOut ∧ busIdle.gpioOut ∧ busG0.scl.lat = false ∧ 1 ≤ 1 ∧ 1 ≤ 8 ∧ (8 : Nat) ≤ 8 :=
  ⟨⟨rfl, rfl, rfl⟩, ⟨rfl, rfl, rfl⟩, rfl, by decide, by decide, by decide⟩

/-- For SignalCommandsMakeTheirBusConditions: all four commands answer. -/
theorem test_witness_bus_conditions :
    (∃ t, exec .start busG0 = .next t) ∧ (∃ t, exec .stop busG0 = .next t) ∧
      (∃ t, exec (.send 0xA5#8 8 false true) busG0 = .next t) ∧ ∃ t, exec (.rack true) busG0 = .next t :=
  ⟨⟨_, exec_eq_run _ _⟩, ⟨_, exec_eq_run _ _⟩, ⟨_, exec_eq_run _ _⟩, ⟨_, exec_eq_run _ _⟩⟩

/-- For FramesDutyMeansOneCondition: START and STOP that keep the duty, and that break it. -/
theorem test_witness_frames_duty :
    framesDuty .start busIdle = true ∧ framesDuty .stop busG0 = true ∧ busG0.sda.lat = false ∧
      framesDuty .stop busIdle = false ∧ (∃ t, exec .start busIdle = .next t) ∧ ∃ t, exec .stop busIdle = .next t :=
  ⟨by decide, by decide, rfl, by decide, ⟨_, exec_eq_run _ _⟩, ⟨_, exec_eq_run _ _⟩⟩

/-- For StoreByHandKeepsTheHostDuties. -/
theorem test_witness_latches_high :
    State.reset.params.latchOnOut = .retain ∧ State.reset.scl.lat = true ∧ State.reset.sda.lat = true := by decide

/-- For SeeingIdleMeansTheResultStands: a read of an idle block and of a busy one. -/
theorem test_witness_status_seen :
    (∃ t v, step (withHost busIdle (.read 1) 5) = .next t ∧ t.readData = some v ∧ showsIdle v = true) ∧
      ∃ t v, step (withHost (drawing busyBlock [0x0000#16]) (.read 1) 0) = .next t ∧ t.readData = some v ∧
        showsIdle v = false :=
  ⟨⟨_, _, rfl, rfl, by decide⟩, ⟨_, _, rfl, rfl, by decide⟩⟩

/-- For the drawn latches of LdirSetsTheDirection, LmuxSwitchesThePins, SendWithAck and RackIsTheAckCycle, and the drawn pins
of LmuxFailureRaisesPinReconf. -/
theorem test_witness_draws :
    (drawing (parameters .top .draw true busG0) [1, 0]).params.latchOnOut = .draw ∧
      (drawing (parameters .top .draw true busG0) [1, 0]).env.values = 1 :: 0 :: [] ∧
      (drawing (parameters .top .draw true busG0) [1, 0]).mux = .gpio ∧
      (drawing (prompt State.reset [] [false]) [0xFFFF]).nextSwitch = false ∧
      (drawing (prompt State.reset [] [false]) [0xFFFF]).env.values = 0xFFFF :: [] := by decide

/-- For the drawn pins of StoreStepOneFailure, the attempt succeeding and failing, and of StoreStepEightFailure, under RETAIN
and under DRAW. -/
theorem test_witness_store_draws :
    (drawing (prompt State.reset [] [false, true]) [1, 2, 3]).nextSwitch = false ∧
      (drawing (prompt State.reset [] [false, true]) [1, 2, 3]).env.switches[1]? = some true ∧
      (drawing (prompt State.reset [] [false, false]) [1, 2, 3]).env.switches[1]? = some false ∧
      (drawing (prompt State.reset [] [false, true]) [1, 2, 3]).env.values[1]? = some 2 ∧
      (drawing (prompt State.reset [] [false, true]) [1, 2, 3]).env.values[2]? = some 3 ∧
      (drawing (prompt State.reset [] [true, false]) [1]).env.values[0]? = some 1 ∧
      (drawing (parameters .top .draw true (prompt State.reset [] [true, false])) (List.replicate 16 7)).env.values[15]? =
        some 7 ∧
      (drawing (parameters .top .draw true (prompt State.reset [] [true, false])) (List.replicate 16 7)).secondSwitchFails :=
  ⟨by decide, by decide, by decide, by decide, by decide, by decide, by decide, rfl, [], rfl⟩

/-- For AckCyclesTakeAtLeastTheirTime: both its kinds of command. -/
theorem test_witness_ack_cycles :
    (∃ a, Instr.rack true = .rack a ∧ 0 = 0 ∨
      ∃ v n, Instr.rack true = .send v n a true ∧ 1 ≤ n ∧ n ≤ 8 ∧ 0 = 10 * n) ∧
    (∃ a, Instr.send 0#8 8 true true = .rack a ∧ 80 = 0 ∨
      ∃ v n, Instr.send 0#8 8 true true = .send v n a true ∧ 1 ≤ n ∧ n ≤ 8 ∧ 80 = 10 * n) :=
  ⟨⟨true, .inl ⟨rfl, rfl⟩⟩, ⟨true, .inr ⟨0#8, 8, rfl, by decide, by decide, rfl⟩⟩⟩

/-- For StoreRunsTheWholeSequence, StoreIgnoresAcknowledgments and StoreStepEightFailure. -/
theorem test_witness_store :
    (prompt State.reset [false] [true, true]).bothSwitchesSucceed ∧
      (parameters .top .retain false (prompt State.reset [true] [])).bothSwitchesSucceed ∧
      (prompt State.reset [] [true, false]).secondSwitchFails :=
  ⟨.inr ⟨[], rfl⟩, .inl rfl, rfl, [], rfl⟩

set_option maxRecDepth 100000 in
/-- For StoreEqualsTheSequenceByHand: with V-STORE-1's answers the sequence by hand raises nothing. -/
theorem test_witness_store_by_hand :
    ∃ t, execAll (storeByHand 0x58)
        (prompt State.reset ([false, false] ++ List.replicate 9 true ++ [false, false]) [true, true]) = .next t ∧
      t.fault = false :=
  ⟨_, rfl, by decide⟩

/-- For RestoringSequencesEndInI2c. -/
theorem test_witness_restoring :
    restoresPins State.reset.mux [.lmux .gpio, .start, .stop, .lmux .i2c] = true ∧
      restoresPins State.reset.mux [] = true ∧
      ∃ t, execAll [.lmux .gpio, .start, .stop, .lmux .i2c] (prompt State.reset [] [true, true]) = .next t ∧
        t.fault = false :=
  ⟨by decide, by decide, _, rfl, by decide⟩

/-- For AssembledCommandsHaveEncodings. -/
theorem test_witness_assembled :
    asmLine "  SEND 0xA5, 8, 0, 1 ; a byte".toList = some [.send 0xA5#8 8 false true] ∧
      assemble "WAITM 4095" = some [0xFFFF#16] := by decide

/-- For AssemblerRefusesOperandsOutOfRange: numbers at the edges of the ranges, and texts that are no operand. -/
theorem test_witness_operands :
    ["255", "256", "0xA", "1", "8", "9", "0", "2", "127", "128", "4095", "4096"].map (fun x => parseNumber x.toList) =
        [some 255, some 256, some 10, some 1, some 8, some 9, some 0, some 2, some 127, some 128, some 4095, some 4096] ∧
      parseNumber "1x".toList = none ∧ parseLine "SDA".toList = some .sda ∧ parseLine "SD".toList = none ∧
      parseDir "LOW".toList = none ∧ parseLevel "2".toList = none ∧ parseMux "SPI".toList = none ∧
      asmLine "WAITU 4096".toList = none ∧ asmLine "STORE 128".toList = none := by decide

end Sys2Proof.Tests
end

section
/-!
SUPPORT. What one step of the whole machine can do (log 2), and what no step of it writes: the parameters (R10).
-/

namespace Sys2Proof.Machine

/-- A step is a step of the sequencer, or nothing while the block is idle and the host silent (R242), or the host's next
operation. -/
theorem step_cases {s t : State} (h : step s = .next t) :
    (sequencerMoves s = true ∧ t = tick s.countDown) ∨ (sequencerMoves s = false ∧ s.host = [] ∧ t = s) ∨
      ∃ e rest, sequencerMoves s = false ∧ s.host = e :: rest ∧ hostOp e.op { s with host := rest } = .next t := by
  unfold step stepOnce at h
  cases hm : sequencerMoves s
  · cases hh : s.host with
    | nil =>
      rw [hm, hh] at h
      cases h
      exact .inr (.inl ⟨rfl, rfl, rfl⟩)
    | cons e rest =>
      rw [hm, hh] at h
      exact .inr (.inr ⟨e, rest, rfl, rfl, h⟩)
  · rw [hm] at h
    cases h
    exact .inl ⟨rfl, rfl⟩

/-- A write to CMD that the host waits for is discarded, runs its command, or raises ILLEGAL_CMD (R55, R202, R210). -/
theorem hostWriteCmd_cases (w : Word) (s : State) :
    (s.fault = true ∧ hostWriteCmd w s = .next s) ∨
      (∃ i, s.fault = false ∧ decode w = .ok i ∧ hostWriteCmd w s = exec i (s.accept w)) ∨
      ∃ e, s.fault = false ∧ decode w = .error e ∧ hostWriteCmd w s = .next ((s.accept w).raise .illegalCmd) := by
  unfold hostWriteCmd
  cases hf : s.fault
  · cases hd : decode w <;> simp
  · simp

/-- A write to CMD that the host does not wait for is discarded, begins its command, or raises ILLEGAL_CMD (R55, R202,
R210). -/
theorem hostPostCmd_cases (w : Word) (s : State) :
    (s.fault = true ∧ hostPostCmd w s = s) ∨
      (∃ i, s.fault = false ∧ decode w = .ok i ∧ hostPostCmd w s = (s.accept w).begin (body i)) ∨
      ∃ e, s.fault = false ∧ decode w = .error e ∧ hostPostCmd w s = (s.accept w).raise .illegalCmd := by
  unfold hostPostCmd
  cases hf : s.fault
  · cases hd : decode w <;> simp
  · simp

theorem exec_params {i : Instr} {s t : State} (h : exec i s = .next t) : t.params = s.params := by
  rw [exec_eq_run] at h
  cases h
  simp

theorem hostWriteCmd_params {w : Word} {s t : State} (h : hostWriteCmd w s = .next t) : t.params = s.params := by
  obtain ⟨_, hw⟩ | ⟨i, _, _, hw⟩ | ⟨e, _, _, hw⟩ := hostWriteCmd_cases w s <;> rw [hw] at h
  · cases h; rfl
  · exact (exec_params h).trans (s.accept_params w)
  · cases h; rfl

@[simp] theorem hostPostCmd_params (w : Word) (s : State) : (hostPostCmd w s).params = s.params := by
  obtain ⟨_, h⟩ | ⟨i, _, _, h⟩ | ⟨e, _, _, h⟩ := hostPostCmd_cases w s <;> simp [h]

@[simp] theorem hostRead_params (off : Nat) (s : State) : (hostRead off s).params = s.params := by
  unfold hostRead
  cases s.busy <;> rfl

theorem hostOp_params {op : HostOp} {s t : State} (h : hostOp op s = .next t) : t.params = s.params := by
  cases op with
  | write off w =>
    simp only [hostOp] at h
    split at h
    · exact hostWriteCmd_params h
    · cases h; rfl
  | post off w =>
    simp only [hostOp] at h
    split at h <;> cases h <;> simp
  | read off => cases h; simp
  | partialAccess => cases h
  | reset => cases h; simp

/-- Settles O23: neither the sequencer's step nor any host operation, reset included, writes the parameters. -/
theorem parametersAreNeverWritten : Obligations.ParametersAreNeverWritten := by
  unfold Obligations.ParametersAreNeverWritten
  intro s t h
  obtain ⟨_, rfl⟩ | ⟨_, _, rfl⟩ | ⟨e, rest, _, _, hop⟩ := step_cases h
  · simp
  · rfl
  · simpa using hostOp_params hop

end Sys2Proof.Machine
end

section
/-!
SUPPORT. A command does not look at the host's side of the state (R6, R63, R65): every operation, statement and run
commutes with putting another agenda, other read data and another LASTCMD in their place.
-/

namespace Sys2Proof.Machine

/-- The state with another host's side: the agenda, the data of its last read, and the word it wrote last. -/
def State.withHostSide (s : State) (h : List HostEvent) (d : Option Word) (w : Word) : State :=
  { s with host := h, readData := d, lastCmd := w }

section
variable (s : State) (h : List HostEvent) (d : Option Word) (w : Word)

/-! ## What commands read does not depend on the host's side -/

@[simp] theorem State.withHostSide_busy : (s.withHostSide h d w).busy = s.busy := rfl
@[simp] theorem State.withHostSide_mux : (s.withHostSide h d w).mux = s.mux := rfl
@[simp] theorem State.withHostSide_seq : (s.withHostSide h d w).seq = s.seq := rfl
@[simp] theorem State.withHostSide_params : (s.withHostSide h d w).params = s.params := rfl
@[simp] theorem State.withHostSide_line (l : Line) : (s.withHostSide h d w).line l = s.line l := by cases l <;> rfl
@[simp] theorem State.withHostSide_nextValue : (s.withHostSide h d w).nextValue = s.nextValue := rfl
@[simp] theorem State.withHostSide_nextSwitch : (s.withHostSide h d w).nextSwitch = s.nextSwitch := rfl
@[simp] theorem State.withHostSide_readLevel (l : Line) : (s.withHostSide h d w).readLevel l = s.readLevel l := by
  simp only [State.readLevel, State.withHostSide_line]; rfl

/-! ## The operations -/

@[simp] theorem State.setLat_withHostSide (l : Line) (v : Bool) :
    (s.withHostSide h d w).setLat l v = (s.setLat l v).withHostSide h d w := by cases l <;> rfl
@[simp] theorem State.setDir_withHostSide (l : Line) (x : Dir) :
    (s.withHostSide h d w).setDir l x = (s.setDir l x).withHostSide h d w := by cases l <;> rfl
@[simp] theorem State.countRead_withHostSide :
    (s.withHostSide h d w).countRead = s.countRead.withHostSide h d w := rfl
@[simp] theorem State.takeAnswer_withHostSide :
    (s.withHostSide h d w).takeAnswer = s.takeAnswer.withHostSide h d w := rfl
@[simp] theorem State.takeSwitch_withHostSide :
    (s.withHostSide h d w).takeSwitch = s.takeSwitch.withHostSide h d w := by
  cases hc : s.params.muxCanFail
  · simp [State.takeSwitch, hc]
  · simp only [State.takeSwitch, State.withHostSide_params, hc]; rfl
@[simp] theorem State.takeValue_withHostSide :
    (s.withHostSide h d w).takeValue = s.takeValue.withHostSide h d w := rfl
@[simp] theorem State.emit_withHostSide (e : Event) :
    (s.withHostSide h d w).emit e = (s.emit e).withHostSide h d w := rfl
@[simp] theorem State.drawPins_withHostSide :
    (s.withHostSide h d w).drawPins = s.drawPins.withHostSide h d w := rfl
@[simp] theorem State.delay_withHostSide (n : Nat) :
    (s.withHostSide h d w).delay n = (s.delay n).withHostSide h d w := rfl
@[simp] theorem State.raise_withHostSide (c : ErrCode) :
    (s.withHostSide h d w).raise c = (s.raise c).withHostSide h d w := rfl
@[simp] theorem State.begin_withHostSide (c : List Stmt) :
    (s.withHostSide h d w).begin c = (s.begin c).withHostSide h d w := rfl
@[simp] theorem State.finish_withHostSide : (s.withHostSide h d w).finish = s.finish.withHostSide h d w := rfl
@[simp] theorem State.setResult_withHostSide (r x : Bool) :
    (s.withHostSide h d w).setResult r x = (s.setResult r x).withHostSide h d w := rfl
@[simp] theorem State.setAckResult_withHostSide :
    (s.withHostSide h d w).setAckResult = s.setAckResult.withHostSide h d w := rfl
@[simp] theorem State.setBit_withHostSide (i : Nat) :
    (s.withHostSide h d w).setBit i = (s.setBit i).withHostSide h d w := rfl
@[simp] theorem State.setPoll_withHostSide (k : Nat) :
    (s.withHostSide h d w).setPoll k = (s.setPoll k).withHostSide h d w := rfl
@[simp] theorem State.setMatch_withHostSide (r m : Bool) :
    (s.withHostSide h d w).setMatch r m = (s.setMatch r m).withHostSide h d w := rfl
@[simp] theorem State.setStep_withHostSide (k : Nat) :
    (s.withHostSide h d w).setStep k = (s.setStep k).withHostSide h d w := rfl

@[simp] theorem State.lineWrite_withHostSide (l : Line) (v : Bool) :
    (s.withHostSide h d w).lineWrite l v = (s.lineWrite l v).withHostSide h d w := by
  simp [State.lineWrite]

@[simp] theorem State.lineRead_withHostSide (l : Line) :
    (s.withHostSide h d w).lineRead l = (s.lineRead l).withHostSide h d w := by
  cases hd : (s.line l).dir <;> simp [State.lineRead, hd]

@[simp] theorem State.latchOnOut_withHostSide (l : Line) :
    (s.withHostSide h d w).latchOnOut l = (s.latchOnOut l).withHostSide h d w := by
  cases hl : s.params.latchOnOut <;> simp [State.latchOnOut, hl]

@[simp] theorem State.turn_withHostSide (l : Line) (x : Dir) :
    (s.withHostSide h d w).turn l x = (s.turn l x).withHostSide h d w := by
  cases x <;> simp [State.turn]

@[simp] theorem State.lineDir_withHostSide (l : Line) (x : Dir) :
    (s.withHostSide h d w).lineDir l x = (s.lineDir l x).withHostSide h d w := by
  simp [State.lineDir]

@[simp] theorem State.switchTo_withHostSide (m : Mux) :
    (s.withHostSide h d w).switchTo m = (s.switchTo m).withHostSide h d w := by
  cases m with
  | i2c => rfl
  | gpio =>
    calc (s.withHostSide h d w).switchTo .gpio
        = (({ s with mux := .gpio }.withHostSide h d w).turn .scl .output).turn .sda .output := rfl
      _ = (s.switchTo .gpio).withHostSide h d w := by simp [State.switchTo]

@[simp] theorem State.muxSet_withHostSide (m : Mux) :
    (s.withHostSide h d w).muxSet m = (s.muxSet m).withHostSide h d w := by
  cases hs : s.nextSwitch <;> simp [State.muxSet, hs]

@[simp] theorem State.requireGpio_withHostSide :
    (s.withHostSide h d w).requireGpio = s.requireGpio.withHostSide h d w := by
  cases hm : s.mux <;> simp [State.requireGpio, hm]

@[simp] theorem State.requireGpioOut_withHostSide :
    (s.withHostSide h d w).requireGpioOut = s.requireGpioOut.withHostSide h d w := by
  by_cases hg : s.gpioOut
  · have hg' : (s.withHostSide h d w).gpioOut := hg
    rw [State.requireGpioOut_ok hg, State.requireGpioOut_ok hg']
  · have hg' : ¬ (s.withHostSide h d w).gpioOut := hg
    rw [State.requireGpioOut_fails hg, State.requireGpioOut_fails hg', State.raise_withHostSide]

/-! ## Statements and runs -/

@[simp] theorem pollOnce_withHostSide (a : Bool) :
    pollOnce a (s.withHostSide h d w) = (pollOnce a s).withHostSide h d w := by
  simp [pollOnce]

@[simp] theorem pollLoop_withHostSide (a : Bool) (n : Nat) :
    pollLoop a n (s.withHostSide h d w) = (pollLoop a n s).withHostSide h d w := by
  induction n generalizing s with
  | zero => rfl
  | succ n ih => cases hm : (s.readLevel .sda == a) <;> simp [pollLoop, hm, ih]

@[simp] theorem restorePins_withHostSide :
    restorePins (s.withHostSide h d w) = (restorePins s).withHostSide h d w := by
  simp [restorePins]

@[simp] theorem muxOrFault_withHostSide (m : Mux) :
    muxOrFault m (s.withHostSide h d w) = (muxOrFault m s).withHostSide h d w := by
  cases hs : s.nextSwitch
  · by_cases h1 : s.seq.step = 1 <;> simp [muxOrFault, hs, h1]
  · simp [muxOrFault, hs]

@[simp] theorem doStmt_withHostSide (st : Stmt) :
    doStmt st (s.withHostSide h d w) = (doStmt st s).withHostSide h d w := by
  cases st <;> simp [doStmt]

@[simp] theorem run_withHostSide (code : List Stmt) :
    run code (s.withHostSide h d w) = (run code s).withHostSide h d w := by
  induction code generalizing s with
  | nil => rfl
  | cons st rest ih =>
    rw [run_cons, run_cons, doStmt_withHostSide]
    cases hb : (doStmt st s).busy
    · simp [hb]
    · simp [hb, ih]

end

/-- A command run with another host's side ends in the same state with that host's side. -/
theorem exec_withHostSide {i : Instr} {s t : State} (he : exec i s = .next t) (h : List HostEvent) (d : Option Word)
    (w : Word) : exec i (s.withHostSide h d w) = .next (t.withHostSide h d w) := by
  rw [exec_eq_run] at he ⊢
  cases he
  simp

/-- Settles O27, by commuting every statement of the command's body with the change of the host's side. -/
theorem commandsIgnoreTheHost : Obligations.CommandsIgnoreTheHost := by
  unfold Obligations.CommandsIgnoreTheHost
  intro i s t h d w he
  exact exec_withHostSide he h d w

end Sys2Proof.Machine
end

section
/-!
SUPPORT. The machine's invariant (R31, R34, R35, R36, R38), the growth of the trace (R35, R61) and LASTCMD (R37): what
one step of the machine can do, said once, and each of the three derived from it.
-/

namespace Sys2Proof.Machine

/-! ## What one step can do -/

/-- A host event comes to pass only while the block is idle, or when it is due and BUSY does not hold it (R56; log 2).
-/
theorem hostEvent_due {s : State} {e : HostEvent} {rest : List HostEvent} (hm : sequencerMoves s = false)
    (hh : s.host = e :: rest) : s.busy = false ∨ (e.after = 0 ∧ e.op.heldByBusy = false) := by
  cases hb : s.busy
  · exact .inl rfl
  · right
    simpa [sequencerMoves, hb, hh] using hm

/-- What a step does: one statement of the command in progress; nothing; or the next event of the host, which is a
reset, a read, a write without effect (R59, R210), or a write to CMD whose command runs whole, begins, or is ILLEGAL
(R55). -/
inductive StepDoes (s t : State) : Prop where
  | ticks (hb : s.busy = true) (ht : t = tick s.countDown)
  | nothing (ht : t = s)
  | resets (k : Nat) (rest : List HostEvent) (hh : s.host = ⟨.reset, k⟩ :: rest) (hk : s.busy = false ∨ k = 0)
      (ht : t = ({ s with host := rest } : State).resetBlock)
  | reads (off : Nat) (rest : List HostEvent) (ht : t = hostRead off { s with host := rest })
  | ignores (rest : List HostEvent) (ht : t = { s with host := rest })
  | runs (w : Word) (k : Nat) (rest : List HostEvent) (i : Instr) (hh : s.host = ⟨.write 0 w, k⟩ :: rest)
      (hb : s.busy = false) (hf : s.fault = false)
      (ht : exec i (({ s with host := rest } : State).accept w) = .next t)
  | begins (w : Word) (k : Nat) (rest : List HostEvent) (i : Instr) (hh : s.host = ⟨.post 0 w, k⟩ :: rest)
      (hb : s.busy = false) (hf : s.fault = false)
      (ht : t = (({ s with host := rest } : State).accept w).begin (body i))
  | illegal (w : Word) (k : Nat) (rest : List HostEvent)
      (hh : s.host = ⟨.write 0 w, k⟩ :: rest ∨ s.host = ⟨.post 0 w, k⟩ :: rest) (hb : s.busy = false)
      (hf : s.fault = false) (ht : t = (({ s with host := rest } : State).accept w).raise .illegalCmd)

/-- The host's next event, when it comes to pass. -/
theorem hostOp_does {s t : State} {op : HostOp} {k : Nat} {rest : List HostEvent} (hm : sequencerMoves s = false)
    (hh : s.host = ⟨op, k⟩ :: rest) (h : hostOp op { s with host := rest } = .next t) : StepDoes s t := by
  have hdue := hostEvent_due hm hh
  cases op with
  | write off w =>
    simp only [hostOp] at h
    split at h
    case isTrue h0 =>
      subst h0
      have hb : s.busy = false := by simpa [HostOp.heldByBusy] using hdue
      obtain ⟨_, hw⟩ | ⟨i, hf, _, hw⟩ | ⟨e, hf, _, hw⟩ := hostWriteCmd_cases w { s with host := rest } <;> rw [hw] at h
      · cases h; exact .ignores rest rfl
      · exact .runs w k rest i hh hb hf h
      · cases h; exact .illegal w k rest (.inl hh) hb hf rfl
    case isFalse => cases h; exact .ignores rest rfl
  | post off w =>
    simp only [hostOp] at h
    split at h
    case isTrue h0 =>
      subst h0
      have hb : s.busy = false := by simpa [HostOp.heldByBusy] using hdue
      obtain ⟨_, hw⟩ | ⟨i, hf, _, hw⟩ | ⟨e, hf, _, hw⟩ := hostPostCmd_cases w { s with host := rest } <;>
        rw [hw] at h <;> cases h
      · exact .ignores rest rfl
      · exact .begins w k rest i hh hb hf rfl
      · exact .illegal w k rest (.inr hh) hb hf rfl
    case isFalse => cases h; exact .ignores rest rfl
  | read off => cases h; exact .reads off rest rfl
  | partialAccess => cases h
  | reset => cases h; exact .resets k rest hh (by simpa [HostOp.heldByBusy] using hdue) rfl

theorem step_does {s t : State} (h : step s = .next t) : StepDoes s t := by
  obtain ⟨hm, ht⟩ | ⟨_, _, ht⟩ | ⟨⟨op, k⟩, rest, hm, hh, hop⟩ := step_cases h
  · exact .ticks (by simp_all [sequencerMoves]) ht
  · exact .nothing ht
  · exact hostOp_does hm hh hop

/-! ## The ends of commands -/

/-- A command ends with BUSY = 0, the sequencer idle, and what is not its own unchanged (R31, R38, R55). -/
theorem exec_ends {i : Instr} {s t : State} (h : exec i s = .next t) :
    t.busy = false ∧ t.seq = Seq.idle ∧ t.lastCmd = s.lastCmd ∧ t.params = s.params ∧ t.host = s.host ∧
      t.readData = s.readData := by
  rw [exec_eq_run] at h
  cases h
  simp

/-- Settles O8: exec is the body's run and then the command's end, and no statement writes the other fields. -/
theorem everyCommandEnds : Obligations.EveryCommandEnds := by
  unfold Obligations.EveryCommandEnds
  intro i s
  exact ⟨_, exec_eq_run i s, exec_ends (exec_eq_run i s)⟩

/-- A command only adds to the trace (R35, R61). -/
theorem exec_grows {i : Instr} {s t : State} (h : exec i s = .next t) : ∃ evs, Emits s t evs := by
  rw [exec_eq_run] at h
  cases h
  obtain ⟨evs, he⟩ := run_grows (body i) (s.begin [])
  exact ⟨evs, he.ofCommand⟩

/-- A command leaves FAULT and ERR alone, or enters a fault and keeps the first one's code (R36, R205). -/
theorem exec_fault {i : Instr} {s t : State} (h : exec i s = .next t) :
    (t.fault = s.fault ∧ t.err = s.err) ∨
      ∃ c, c ≠ .none ∧ t.fault = true ∧ t.err = if s.fault then s.err else c := by
  rw [exec_eq_run] at h
  cases h
  cases run_moves (body i) (s.begin []) with
  | goesOn _ hf he => exact .inl ⟨hf, he⟩
  | raises c hc _ hf he _ => exact .inr ⟨c, hc, hf, he⟩

/-- A host read keeps the block's state, BUSY, FAULT, ERR, LASTCMD, the sequencer, time and trace among it (R57). -/
@[simp] theorem hostRead_block (off : Nat) (s : State) :
    (hostRead off s).busy = s.busy ∧ (hostRead off s).fault = s.fault ∧ (hostRead off s).err = s.err ∧
      (hostRead off s).lastCmd = s.lastCmd ∧ (hostRead off s).seq = s.seq ∧ (hostRead off s).t = s.t ∧
      (hostRead off s).trace = s.trace := by
  cases hb : s.busy <;> simp [hostRead, hb]

/-! ## The trace -/

/-- A step is a reset, or only adds to the trace: the sequencer's statements and whole commands append to it, and no
host event but reset touches it. -/
theorem step_resets_or_grows {s t : State} (h : step s = .next t) :
    (∃ k rest, s.host = ⟨.reset, k⟩ :: rest ∧ (s.busy = false ∨ k = 0) ∧
      t = ({ s with host := rest } : State).resetBlock) ∨ ∃ evs, Emits s t evs := by
  cases step_does h with
  | ticks _ ht =>
    obtain ⟨evs, he⟩ := tick_grows s.countDown
    exact .inr ⟨evs, ht ▸ he.of_eq rfl rfl rfl rfl⟩
  | nothing ht => exact .inr ⟨[], ht ▸ .refl s⟩
  | resets k rest hh hk ht => exact .inl ⟨k, rest, hh, hk, ht⟩
  | reads off rest ht => exact .inr ⟨[], (Emits.refl s).of_eq rfl rfl (by simp [ht]) (by simp [ht])⟩
  | ignores rest ht => exact .inr ⟨[], (Emits.refl s).of_eq rfl rfl (by simp [ht]) (by simp [ht])⟩
  | runs w k rest i _ _ _ ht =>
    obtain ⟨evs, he⟩ := exec_grows ht
    exact .inr ⟨evs, he.of_eq rfl rfl rfl rfl⟩
  | begins w k rest i _ _ _ ht => exact .inr ⟨[], (Emits.refl s).of_eq rfl rfl (by simp [ht]) (by simp [ht])⟩
  | illegal w k rest _ _ _ ht => exact .inr ⟨[], (Emits.refl s).of_eq rfl rfl (by simp [ht]) (by simp [ht])⟩

/-- Settles O24: what a step that is no reset does to the trace. -/
theorem traceOnlyGrows : Obligations.TraceOnlyGrows := by
  unfold Obligations.TraceOnlyGrows
  intro s t h
  obtain ⟨k, rest, hh, hk, _⟩ | hgrows := step_resets_or_grows h
  · exact .inl ⟨k, rest, hh, hk⟩
  · exact .inr hgrows

/-- A timed piece of trace lies between its two ends, in order (R34, R61). -/
theorem Timed.ordered {t0 t1 : Nat} {new : List (Nat × Event)} (h : Timed t0 new t1) :
    t0 ≤ t1 ∧ new.Pairwise (fun x y => x.1 ≤ y.1) ∧ ∀ x ∈ new, t0 ≤ x.1 ∧ x.1 ≤ t1 := by
  induction new generalizing t0 with
  | nil => cases h; simp
  | cons x rest ih =>
    obtain ⟨hx, t', hle, h'⟩ := h
    obtain ⟨ht, hp, hin⟩ := ih h'
    refine ⟨by omega, List.pairwise_cons.mpr ⟨fun y hy => ?_, hp⟩, fun y hy => ?_⟩
    · have := hin y hy
      omega
    · rcases List.mem_cons.mp hy with rfl | hy
      · omega
      · have := hin y hy
        omega

/-- A trace in order, and not ahead of time, stays so as it grows (R35). -/
theorem Emits.traceOrdered {s t : State} {evs : List Event} (h : Emits s t evs) (hs : TraceOrdered s.trace s.t) :
    TraceOrdered t.trace t.t := by
  obtain ⟨new, htr, _, hT⟩ := h
  obtain ⟨hle, hp, hin⟩ := hT.ordered
  obtain ⟨hsp, hst⟩ := hs
  rw [TraceOrdered, htr]
  refine ⟨List.pairwise_append.mpr ⟨hsp, hp, fun x hx y hy => ?_⟩, fun x hx => ?_⟩
  · have := hst x hx
    have := hin y hy
    omega
  · rcases List.mem_append.mp hx with hx | hx
    · have := hst x hx
      omega
    · exact (hin x hx).2

/-- A reset begins an empty trace; any other step adds to the trace: either way it stays in order. -/
theorem step_keeps_traceOrdered {s t : State} (hs : TraceOrdered s.trace s.t) (h : step s = .next t) :
    TraceOrdered t.trace t.t := by
  obtain ⟨_, _, _, _, rfl⟩ | ⟨evs, he⟩ := step_resets_or_grows h
  · simp [TraceOrdered]
  · exact he.traceOrdered hs

/-! ## The invariant -/

/-- Settles O19: the reset values of R40. -/
theorem resetMeetsTheInvariant : Obligations.ResetMeetsTheInvariant := by
  unfold Obligations.ResetMeetsTheInvariant
  simp [State.Inv, State.reset, TraceOrdered]

/-- ERR is NONE exactly when FAULT is 0 (R36), a fault has ended its command (R205), and an idle block holds no hidden
state (R31, R38): the invariant without the trace. -/
def FaultInv (s : State) : Prop :=
  (s.fault = false ↔ s.err = .none) ∧ (s.fault = true → s.busy = false) ∧ (s.busy = false → s.seq = Seq.idle)

theorem State.inv_iff (s : State) : s.Inv ↔ FaultInv s ∧ TraceOrdered s.trace s.t := by
  simp only [State.Inv, FaultInv, and_assoc]

/-- A command in progress holds no fault, and whatever a statement does to BUSY, FAULT and ERR keeps the invariant. -/
theorem Moves.faultInv {s t : State} (h : Moves s t) (hb : s.busy = true) (hs : FaultInv s) : FaultInv t := by
  obtain ⟨hfe, hfb, _⟩ := hs
  have hf0 : s.fault = false := by simpa [hb] using hfb
  cases h with
  | goesOn hb' hf he => exact ⟨by rw [hf, he]; exact hfe, by simp [hf, hf0], by simp [hb', hb]⟩
  | raises c hc hb' hf he hq => exact ⟨by simp [hf, he, hf0, hc], fun _ => hb', fun _ => hq⟩

/-- The sequencer's step keeps the invariant. -/
theorem tick_keeps_faultInv {s : State} (hb : s.busy = true) (hs : FaultInv s) : FaultInv (tick s) := by
  obtain ⟨hb', _⟩ | ⟨_, _, h⟩ | ⟨st, rest, _, _, h⟩ := tick_cases s
  · simp [hb] at hb'
  · rw [h]
    exact ⟨hs.1, fun _ => rfl, fun _ => rfl⟩
  · rw [h]
    have hs' : FaultInv (s.setCode rest) := ⟨hs.1, hs.2.1, by simp [hb]⟩
    exact (startStmt_moves st (s.setCode rest)).faultInv hb hs'

/-- A command run whole from a state without a fault ends in the invariant. -/
theorem exec_faultInv {i : Instr} {s t : State} (h : exec i s = .next t) (hf : s.fault = false)
    (he : s.err = .none) : FaultInv t := by
  obtain ⟨hb, hq, _⟩ := exec_ends h
  refine ⟨?_, fun _ => hb, fun _ => hq⟩
  obtain ⟨hf', he'⟩ | ⟨c, hc, hf', he'⟩ := exec_fault h
  · simp [hf', he', hf, he]
  · simp [hf', he', hf, hc]

theorem step_keeps_faultInv {s t : State} (hs : FaultInv s) (h : step s = .next t) : FaultInv t := by
  cases step_does h with
  | ticks hb ht => exact ht ▸ tick_keeps_faultInv (s := s.countDown) hb hs
  | nothing ht => exact ht ▸ hs
  | resets k rest _ _ ht => simp [ht, FaultInv]
  | reads off rest ht => simpa [ht, FaultInv] using hs
  | ignores rest ht => exact ht ▸ hs
  | runs w k rest i _ _ hf ht => exact exec_faultInv ht hf (hs.1.mp hf)
  | begins w k rest i _ _ hf ht => simpa [ht, FaultInv, hf] using hs.1.mp hf
  | illegal w k rest _ _ hf ht => simp [ht, FaultInv, hf]

/-- Settles O20, the parts about FAULT, ERR, BUSY and the sequencer by the cases of a step, the trace by its growth. -/
theorem stepKeepsTheInvariant : Obligations.StepKeepsTheInvariant := by
  unfold Obligations.StepKeepsTheInvariant
  intro s t hs h
  obtain ⟨hfault, htrace⟩ := s.inv_iff.mp hs
  exact t.inv_iff.mpr ⟨step_keeps_faultInv hfault h, step_keeps_traceOrdered htrace h⟩

/-! ## LASTCMD -/

/-- Settles O25: only a reset and the three ways to take a word at CMD write LASTCMD. -/
theorem lastCmdIsTheAcceptedWord : Obligations.LastCmdIsTheAcceptedWord := by
  unfold Obligations.LastCmdIsTheAcceptedWord
  intro s t h hne
  cases step_does h with
  | ticks _ ht => simp [ht] at hne
  | nothing ht => simp [ht] at hne
  | resets k rest hh hk _ => exact .inl ⟨k, rest, hh, hk⟩
  | reads off rest ht => simp [ht] at hne
  | ignores rest ht => simp [ht] at hne
  | runs w k rest i hh hb hf ht =>
    obtain ⟨_, _, hw, _⟩ := exec_ends ht
    rw [State.accept_lastCmd] at hw
    exact .inr ⟨hf, hb, k, rest, .inl (hw ▸ hh)⟩
  | begins w k rest i hh hb hf ht => exact .inr ⟨hf, hb, k, rest, .inr (by simpa [ht] using hh)⟩
  | illegal w k rest hh hb hf ht => exact .inr ⟨hf, hb, k, rest, by simpa [ht] using hh⟩

/-- Settles O60: an idle block answers a read of offset 3 with LASTCMD, which is 0x0000 after reset. -/
theorem lastCmdReadShowsTheWord : Obligations.LastCmdReadShowsTheWord := by
  unfold Obligations.LastCmdReadShowsTheWord
  have hread : ∀ (s : State) (k : Nat) (rest : List HostEvent), s.host = ⟨.read 3, k⟩ :: rest → s.busy = false →
      step s = .next { s with host := rest, readData := some s.lastCmd } := by
    intro s k rest hh hb
    simp [step, stepOnce, sequencerMoves, hh, hb, hostOp, hostRead, State.readRegister]
  exact ⟨hread, fun k rest => hread _ k rest rfl rfl⟩

end Sys2Proof.Machine
end

section
/-!
SUPPORT. How the bodies of the commands are put together from statements and ack cycles (R101 to R106, R130 to R135,
R172), as a rule to prove a property of every body by.
-/

namespace Sys2Proof.Machine

/-- A statement that bodies use outside the ack cycle: no poll (R134) and no change of direction to IN. -/
def Stmt.alone : Stmt → Bool
  | .poll _ => false
  | .lineDir _ .input => false
  | _ => true

theorem bitPeriod_alone (v : Byte) (n i : Nat) : ∀ st ∈ bitPeriod v n i, st.alone = true := by
  simp [bitPeriod, Stmt.alone]

/-- A property that the pieces of the bodies have, and that runs one after another keep. -/
structure PieceRule (P : List Stmt → Prop) : Prop where
  nil : P []
  append : ∀ {a b : List Stmt}, P a → P b → P (a ++ b)
  alone : ∀ st : Stmt, st.alone = true → P [st]
  ack : ∀ a : Bool, P (ackCycle a)

namespace PieceRule

variable {P : List Stmt → Prop}

theorem code (h : PieceRule P) {code : List Stmt} (hc : ∀ st ∈ code, st.alone = true) : P code := by
  induction code with
  | nil => exact h.nil
  | cons st rest ih =>
    obtain ⟨hst, hrest⟩ := List.forall_mem_cons.mp hc
    exact h.append (h.alone st hst) (ih hrest)

theorem start (h : PieceRule P) : P startBody := h.code (by decide)

theorem stop (h : PieceRule P) : P stopBody := h.code (by decide)

theorem send (h : PieceRule P) (v : Byte) (n : Nat) (a w : Bool) : P (sendBody v n a w) := by
  have hbits : P (.requireGpioOut :: bitLoop v n) := by
    refine h.append (h.alone .requireGpioOut rfl) (h.code fun st hst => ?_)
    obtain ⟨i, _, hi⟩ := List.mem_flatMap.mp hst
    exact bitPeriod_alone v n i st hi
  cases w
  · exact h.append hbits (h.code (by cases a <;> decide))
  · exact h.append hbits (h.ack a)

theorem head (h : PieceRule P) : P headSteps :=
  h.append (h.append h.start (h.send _ _ _ _)) h.stop

theorem pair (h : PieceRule P) (cmd : Byte) : P (pairSteps cmd) :=
  h.append (h.append (h.append h.start (h.send _ _ _ _)) (h.send _ _ _ _)) h.stop

theorem sends (h : PieceRule P) (v : Byte) (n : Nat) (a w : Bool) (k : Nat) :
    P (List.replicate k (sendBody v n a w)).flatten := by
  induction k with
  | zero => exact h.nil
  | succ k ih => exact h.append (h.send v n a w) ih

theorem address (h : PieceRule P) (da : BitVec 7) : P (addressSteps da) :=
  h.append (h.append (h.append h.start (h.send _ _ _ _)) (h.sends _ _ _ _ _)) h.stop

theorem step (h : PieceRule P) (k : Nat) {code : List Stmt} (hc : P code) : P (.storeStep k :: code) :=
  h.append (h.alone (.storeStep k) rfl) hc

theorem store (h : PieceRule P) (da : BitVec 7) : P (storeBody da) := by
  have first : P [.storeStep 1, .muxSet .gpio] := h.code (by decide)
  have wait : P [.storeStep 5, .delay (1000 * Config.hw.storeDelayMs)] := h.code (by decide)
  have last : P [.storeStep 8, .muxSet .i2c, .result false false] := h.code (by decide)
  exact h.append (h.append (h.append (h.append (h.append (h.append (h.append first (h.step 2 h.head))
    (h.step 3 (h.pair _))) (h.step 4 (h.address da))) wait) (h.step 6 h.head)) (h.step 7 (h.pair _))) last

/-- Every body but that of LDIR to IN has the property. -/
theorem body (h : PieceRule P) {i : Instr} (hi : ∀ l, i ≠ .ldir l .input) : P (body i) := by
  cases i with
  | start => exact h.start
  | stop => exact h.stop
  | send v n a w => exact h.send v n a w
  | rack a => exact h.append (h.alone .requireGpioOut rfl) (h.ack a)
  | store da => exact h.store da
  | ldir l d =>
    cases d with
    | input => exact absurd rfl (hi l)
    | output => exact h.code (by simp [Machine.body, ldirBody, Stmt.alone])
  | lwr l v => exact h.code (by simp [Machine.body, lwrBody, Stmt.alone])
  | lrd l => exact h.code (by simp [Machine.body, lrdBody, Stmt.alone])
  | lmux m => exact h.code (by simp [Machine.body, lmuxBody, Stmt.alone])
  | waitu c => exact h.code (by simp [Machine.body, waituBody, Stmt.alone])
  | waitm c => exact h.code (by simp [Machine.body, waitmBody, Stmt.alone])

end PieceRule

end Sys2Proof.Machine
end

section
/-!
SUPPORT. A switch and its caller's reaction, by the switch's outcome and STORE's step (R104, R172, R181).
-/

namespace Sys2Proof.Machine

theorem muxOrFault_ok {s : State} (m : Mux) (hn : s.nextSwitch = true) : muxOrFault m s = s.muxSet m := by
  simp [muxOrFault, hn]

theorem muxOrFault_failed_first {s : State} (m : Mux) (hn : s.nextSwitch = false) (h1 : s.seq.step = 1) :
    muxOrFault m s = restorePins (s.muxSet m) := by
  simp [muxOrFault, hn, h1]

theorem muxOrFault_failed {s : State} (m : Mux) (hn : s.nextSwitch = false) (h1 : s.seq.step ≠ 1) :
    muxOrFault m s = (s.muxSet m).raise .pinReconf := by
  simp [muxOrFault, hn, h1]

/-- A switch that fails ends its command (R30, R205). -/
theorem muxOrFault_failed_busy {s : State} (m : Mux) (hn : s.nextSwitch = false) :
    (muxOrFault m s).busy = false := by
  by_cases h1 : s.seq.step = 1
  · rw [muxOrFault_failed_first m hn h1]; rfl
  · rw [muxOrFault_failed m hn h1]; rfl

end Sys2Proof.Machine
end

section
/-!
SUPPORT. Both lines stay OUT from command to command (R41).
-/

namespace Sys2Proof.Machine

/-- A run that goes on to its end leaves both lines OUT when they were so. -/
def KeepsLinesOut (code : List Stmt) : Prop :=
  ∀ s : State, s.busy = true → s.linesOut → (run code s).busy = true → (run code s).linesOut

theorem lineWrite_linesOut {s : State} (l : Line) (v : Bool) (h : s.linesOut) : (s.lineWrite l v).linesOut := by
  cases l <;> simpa [State.linesOut] using h

theorem lineDir_output_linesOut {s : State} (l : Line) (h : s.linesOut) : (s.lineDir l .output).linesOut := by
  cases l
  · exact ⟨by simp, by simpa using h.2⟩
  · exact ⟨by simpa using h.1, by simp⟩

/-- A switch that succeeds leaves both lines as they are, or makes them OUT (R30). -/
theorem muxSet_linesOut {s : State} (m : Mux) (h : s.linesOut) (hn : s.nextSwitch = true) :
    (s.muxSet m).linesOut := by
  rw [s.muxSet_ok m hn]
  cases m with
  | i2c => simpa [State.linesOut] using h
  | gpio => simp [State.linesOut]

theorem doStmt_keepsLinesOut {st : Stmt} (hst : st.alone = true) {s : State} (h : s.linesOut)
    (hb : (doStmt st s).busy = true) : (doStmt st s).linesOut := by
  cases st with
  | requireGpio => rcases s.requireGpio_of with hr | hr <;> simpa [doStmt, hr, State.linesOut] using h
  | requireGpioOut => rcases s.requireGpioOut_of with hr | hr <;> simpa [doStmt, hr, State.linesOut] using h
  | lineWrite l v => exact lineWrite_linesOut l v h
  | frameBit v n => exact lineWrite_linesOut .sda _ h
  | lineDir l d =>
    cases d with
    | input => cases hst
    | output => exact lineDir_output_linesOut l h
  | muxSet m =>
    cases hn : s.nextSwitch
    · simp [doStmt, muxOrFault_failed_busy m hn] at hb
    · rw [doStmt, muxOrFault_ok m hn]
      exact muxSet_linesOut m h hn
  | restore => simp [doStmt, restorePins] at hb
  | poll a => cases hst
  | _ => simpa [doStmt, State.linesOut] using h

theorem keepsLinesOut_rule : PieceRule KeepsLinesOut where
  nil := fun _ _ h _ => h
  append := by
    intro a b ha hb s hs h hend
    rw [run_append hs] at hend ⊢
    cases hm : (run a s).busy
    · simp [hm] at hend
    · rw [State.andThen_busy _ hm] at hend ⊢
      exact hb _ hm (ha s hs h hm) hend
  alone := by
    intro st hst s _ h hend
    simp only [run_cons, State.andThen_nil] at hend ⊢
    exact doStmt_keepsLinesOut hst h hend
  ack := by
    intro a s hs h _
    obtain ⟨_, _, _, _, _, _, hscl, hsda, _⟩ := run_ackCycle a hs
    exact ⟨by simpa [hscl] using h.1, hsda⟩

/-- Settles O26: every piece of the bodies keeps both lines OUT, unless it ends its command with a fault. -/
theorem linesStayOutBetweenCommands : Obligations.LinesStayOutBetweenCommands := by
  unfold Obligations.LinesStayOutBetweenCommands
  intro i s t hs hi h hf
  rw [exec_eq_run] at h
  cases h
  have hbusy : (run (body i) (s.begin [])).busy = true := by
    cases run_moves (body i) (s.begin []) with
    | goesOn hb _ _ => exact hb
    | raises c _ _ hf' => simp [hf'] at hf
  exact keepsLinesOut_rule.body hi (s.begin []) rfl hs hbusy

end Sys2Proof.Machine
end

section
/-!
SUPPORT. Statement by statement and as a whole, a command ends in the same state (R31, R38, R61; log 1): no operation
looks at the statements still to run, so the sequencer's steps through a piece of a body end where the piece's run ends.
-/

namespace Sys2Proof.Machine

section
variable (s : State) (c : List Stmt)

/-! ## What operations read does not depend on the statements still to run -/

@[simp] theorem State.setCode_line (l : Line) : (s.setCode c).line l = s.line l := by cases l <;> rfl
@[simp] theorem State.setCode_setCode (c' : List Stmt) : (s.setCode c).setCode c' = s.setCode c' := rfl
@[simp] theorem State.setCode_nextValue : (s.setCode c).nextValue = s.nextValue := rfl
@[simp] theorem State.setCode_nextSwitch : (s.setCode c).nextSwitch = s.nextSwitch := rfl
@[simp] theorem State.setCode_readLevel (l : Line) : (s.setCode c).readLevel l = s.readLevel l := by
  simp only [State.readLevel, State.setCode_line]; rfl

/-! ## The operations -/

@[simp] theorem State.emit_setCode (e : Event) : (s.setCode c).emit e = (s.emit e).setCode c := rfl
@[simp] theorem State.delay_setCode (d : Nat) : (s.setCode c).delay d = (s.delay d).setCode c := rfl
@[simp] theorem State.raise_setCode (e : ErrCode) : (s.setCode c).raise e = s.raise e := rfl
@[simp] theorem State.andThen_raise (e : ErrCode) (k : State → State) : (s.raise e).andThen k = s.raise e := rfl
@[simp] theorem State.finish_setCode : (s.setCode c).finish = s.finish := rfl
@[simp] theorem State.drawPins_setCode : (s.setCode c).drawPins = s.drawPins.setCode c := rfl
@[simp] theorem State.setBit_setCode (i : Nat) : (s.setCode c).setBit i = (s.setBit i).setCode c := rfl
@[simp] theorem State.setPoll_setCode (k : Nat) : (s.setCode c).setPoll k = (s.setPoll k).setCode c := rfl
@[simp] theorem State.setMatch_setCode (r m : Bool) :
    (s.setCode c).setMatch r m = (s.setMatch r m).setCode c := rfl
@[simp] theorem State.setStep_setCode (k : Nat) : (s.setCode c).setStep k = (s.setStep k).setCode c := rfl
@[simp] theorem State.setResult_setCode (r x : Bool) :
    (s.setCode c).setResult r x = (s.setResult r x).setCode c := rfl
@[simp] theorem State.setAckResult_setCode : (s.setCode c).setAckResult = s.setAckResult.setCode c := rfl

@[simp] theorem State.lineWrite_setCode (l : Line) (v : Bool) :
    (s.setCode c).lineWrite l v = (s.lineWrite l v).setCode c := by
  cases l <;> rfl

@[simp] theorem State.lineRead_setCode (l : Line) : (s.setCode c).lineRead l = (s.lineRead l).setCode c := by
  cases hd : (s.line l).dir <;> simp [State.lineRead, hd] <;> rfl

@[simp] theorem State.turn_setCode (l : Line) (d : Dir) : (s.setCode c).turn l d = (s.turn l d).setCode c := by
  cases d with
  | input => cases l <;> rfl
  | output => cases hl : s.params.latchOnOut <;> cases l <;> simp [State.turn, State.latchOnOut, hl] <;> rfl

@[simp] theorem State.lineDir_setCode (l : Line) (d : Dir) :
    (s.setCode c).lineDir l d = (s.lineDir l d).setCode c := by
  simp [State.lineDir]

@[simp] theorem State.takeSwitch_setCode : (s.setCode c).takeSwitch = s.takeSwitch.setCode c := by
  cases hc : s.params.muxCanFail <;> simp [State.takeSwitch, hc]; rfl

@[simp] theorem State.switchTo_setCode (m : Mux) : (s.setCode c).switchTo m = (s.switchTo m).setCode c := by
  cases m with
  | i2c => rfl
  | gpio =>
    calc (s.setCode c).switchTo .gpio
        = ((({ s with mux := .gpio } : State).setCode c).turn .scl .output).turn .sda .output := rfl
      _ = (s.switchTo .gpio).setCode c := by simp [State.switchTo]

@[simp] theorem State.muxSet_setCode (m : Mux) : (s.setCode c).muxSet m = (s.muxSet m).setCode c := by
  cases hn : s.nextSwitch <;> simp [State.muxSet, hn]

@[simp] theorem pollOnce_setCode (a : Bool) : pollOnce a (s.setCode c) = (pollOnce a s).setCode c := by
  simp [pollOnce]

@[simp] theorem restorePins_setCode : restorePins (s.setCode c) = restorePins s := by
  simp [restorePins]

end

/-- A check passes, whatever is left to run, or ends the command. -/
theorem State.requireGpio_setCode {s : State} (c : List Stmt) (hb : s.busy = true) :
    (s.setCode c).requireGpio = s.requireGpio.andThen (·.setCode c) := by
  cases hm : s.mux <;> simp [State.requireGpio, hm, hb]

theorem State.requireGpioOut_setCode {s : State} (c : List Stmt) (hb : s.busy = true) :
    (s.setCode c).requireGpioOut = s.requireGpioOut.andThen (·.setCode c) := by
  by_cases hg : s.gpioOut
  · have hg' : (s.setCode c).gpioOut := hg
    simp [State.requireGpioOut_ok hg, State.requireGpioOut_ok hg', hb]
  · have hg' : ¬ (s.setCode c).gpioOut := hg
    simp [State.requireGpioOut_fails hg, State.requireGpioOut_fails hg']

/-- The first step of a statement other than a poll and a switch is the statement, whatever is left to run. -/
theorem startStmt_setCode {st : Stmt} (hp : ∀ a, st ≠ .poll a) (hm : ∀ m, st ≠ .muxSet m) {s : State} (c : List Stmt)
    (hb : s.busy = true) : startStmt st (s.setCode c) = (doStmt st s).andThen (·.setCode c) := by
  cases st with
  | poll a => exact absurd rfl (hp a)
  | muxSet m => exact absurd rfl (hm m)
  | requireGpio => exact State.requireGpio_setCode c hb
  | requireGpioOut => exact State.requireGpioOut_setCode c hb
  | restore => simp [startStmt, doStmt, restorePins]
  | _ => simp [startStmt, doStmt, hb]

/-! ## Steps of the sequencer -/

theorem ticks_add (m n : Nat) (s : State) : ticks (m + n) s = ticks n (ticks m s) := by
  induction m generalizing s with
  | zero => simp [ticks]
  | succ m ih => rw [Nat.succ_add]; exact ih (tick s)

theorem tick_statement {s : State} (hb : s.busy = true) (st : Stmt) (rest : List Stmt) :
    tick (s.setCode (st :: rest)) = startStmt st (s.setCode rest) := by
  simp [tick, hb]

/-- Some number of the sequencer's steps takes `s` to `t`. -/
def TicksTo (s t : State) : Prop :=
  ∃ n, ticks n s = t

theorem TicksTo.refl (s : State) : TicksTo s s := ⟨0, rfl⟩

theorem TicksTo.trans {s t u : State} (h : TicksTo s t) (h' : TicksTo t u) : TicksTo s u := by
  obtain ⟨m, rfl⟩ := h
  obtain ⟨n, rfl⟩ := h'
  exact ⟨m + n, ticks_add m n s⟩

theorem TicksTo.once (s : State) : TicksTo s (tick s) := ⟨1, rfl⟩

theorem TicksTo.statement {s : State} (hb : s.busy = true) (st : Stmt) (rest : List Stmt) :
    TicksTo (s.setCode (st :: rest)) (startStmt st (s.setCode rest)) :=
  tick_statement hb st rest ▸ .once _

/-- The sequencer's steps through a piece of a body end where the piece's run ends, with the rest left to run unless a
fault has ended the command. -/
def Sequenced (code : List Stmt) : Prop :=
  ∀ (s : State) (rest : List Stmt), s.busy = true →
    TicksTo (s.setCode (code ++ rest)) ((run code s).andThen (·.setCode rest))

theorem Sequenced.nil : Sequenced [] := by
  intro s rest hb
  simpa [hb] using TicksTo.refl (s.setCode rest)

theorem Sequenced.append {a b : List Stmt} (ha : Sequenced a) (hb : Sequenced b) : Sequenced (a ++ b) := by
  intro s rest hs
  have h := ha s (b ++ rest) hs
  rw [run_append hs, List.append_assoc]
  cases hm : (run a s).busy
  · simpa [hm] using h
  · rw [State.andThen_busy _ hm] at h ⊢
    exact h.trans (hb _ rest hm)

/-- A switch, and after a failure in STORE's first step the restoration attempt, a step of its own (R172, R181). -/
theorem sequenced_muxSet (m : Mux) : Sequenced [.muxSet m] := by
  intro s rest hs
  have h := TicksTo.statement hs (.muxSet m) rest
  simp only [run_cons, State.andThen_nil, doStmt, List.cons_append, List.nil_append]
  cases hn : s.nextSwitch
  · by_cases h1 : s.seq.step = 1
    · have hstart : startStmt (.muxSet m) (s.setCode rest) = (s.muxSet m).setCode [.restore] := by
        simp [startStmt, hn, h1]
      have hrestore := TicksTo.statement (s := s.muxSet m) (by simpa using hs) .restore []
      rw [muxOrFault_failed_first m hn h1, State.andThen_ended _ rfl]
      exact (hstart ▸ h).trans (by simpa [startStmt, doStmt] using hrestore)
    · rw [muxOrFault_failed m hn h1, State.andThen_ended _ rfl]
      simpa [startStmt, hn, h1] using h
  · rw [muxOrFault_ok m hn, State.andThen_busy _ (by simpa using hs)]
    simpa [startStmt, hn] using h

/-- A statement other than a poll is a step of the sequencer, or two. -/
theorem sequenced_statement {st : Stmt} (hst : ∀ a, st ≠ .poll a) : Sequenced [st] := by
  by_cases hm : ∃ m, st = .muxSet m
  · obtain ⟨m, rfl⟩ := hm
    exact sequenced_muxSet m
  · intro s rest hs
    have hstart := startStmt_setCode hst (fun m h => hm ⟨m, h⟩) rest hs
    simpa [run_cons] using hstart ▸ TicksTo.statement hs st rest

/-! ## The poll loop (R134) -/

theorem pollLoop_matched {a : Bool} {s : State} (fuel : Nat) (hm : (s.readLevel .sda == a) = true) :
    pollLoop a (fuel + 1) s = pollOnce a s := by
  simp [pollLoop, hm]

theorem pollLoop_missed {a : Bool} {s : State} (fuel : Nat) (hm : (s.readLevel .sda == a) = false) :
    pollLoop a (fuel + 1) s = pollLoop a fuel ((pollOnce a s).delay Config.hw.ackPollUs) := by
  simp [pollLoop, hm]

/-- A read that matches ends the loop. -/
theorem ticksTo_matched {a : Bool} {s : State} (rest : List Stmt) (hs : s.busy = true)
    (hm : (s.readLevel .sda == a) = true) :
    TicksTo (s.setCode (.poll a :: rest)) ((pollOnce a s).setCode rest) := by
  simpa [startStmt, hm] using TicksTo.statement hs (.poll a) rest

/-- A read that does not match is followed by a wait, and by the next iteration unless it was the last one. -/
theorem ticksTo_missed {a : Bool} {s : State} (rest : List Stmt) (hs : s.busy = true)
    (hm : (s.readLevel .sda == a) = false) :
    TicksTo (s.setCode (.poll a :: rest)) (((pollOnce a s).delay Config.hw.ackPollUs).setCode
      (if Config.hw.ackPollMax ≤ s.seq.poll + 1 then rest else .poll a :: rest)) := by
  have hread : TicksTo (s.setCode (.poll a :: rest)) ((pollOnce a s).setCode (.delay Config.hw.ackPollUs ::
      if Config.hw.ackPollMax ≤ s.seq.poll + 1 then rest else .poll a :: rest)) := by
    simpa [startStmt, hm] using TicksTo.statement hs (.poll a) rest
  exact hread.trans (TicksTo.statement (s := pollOnce a s) (by simpa using hs) (.delay Config.hw.ackPollUs) _)

/-- The sequencer's steps through the poll loop with `fuel + 1` iterations left. -/
theorem ticksTo_pollLoop (a : Bool) (rest : List Stmt) (fuel : Nat) {s : State} (hs : s.busy = true)
    (hk : s.seq.poll + (fuel + 1) = Config.hw.ackPollMax) :
    TicksTo (s.setCode (.poll a :: rest)) ((pollLoop a (fuel + 1) s).setCode rest) := by
  induction fuel generalizing s with
  | zero =>
    cases hm : (s.readLevel .sda == a)
    · rw [pollLoop_missed 0 hm]
      simpa [pollLoop, hk] using ticksTo_missed rest hs hm
    · rw [pollLoop_matched 0 hm]
      exact ticksTo_matched rest hs hm
  | succ fuel ih =>
    cases hm : (s.readLevel .sda == a)
    · have hmore : ¬ Config.hw.ackPollMax ≤ s.seq.poll + 1 := by omega
      have hstep := ticksTo_missed rest hs hm
      rw [if_neg hmore] at hstep
      rw [pollLoop_missed (fuel + 1) hm]
      exact hstep.trans (ih (by simpa using hs) (by simp at hk ⊢; omega))
    · rw [pollLoop_matched (fuel + 1) hm]
      exact ticksTo_matched rest hs hm

/-- The ack cycle's loop after the statement that sets its count to 0. -/
theorem sequenced_polling (a : Bool) : Sequenced [.pollReset, .poll a] := by
  intro s rest hs
  have hrun : run [.pollReset, .poll a] s = pollLoop a 250 (s.setPoll 0) := by
    simp [run_cons, doStmt, hs]
  have hreset := TicksTo.statement hs .pollReset (.poll a :: rest)
  have hloop := ticksTo_pollLoop a rest 249 (s := s.setPoll 0) hs rfl
  rw [hrun, State.andThen_busy _ (by simpa using hs)]
  exact hreset.trans hloop

/-! ## Whole commands -/

theorem sequenced_list {code : List Stmt} (h : ∀ st ∈ code, ∀ a, st ≠ .poll a) : Sequenced code := by
  induction code with
  | nil => exact .nil
  | cons st rest ih =>
    obtain ⟨hst, hrest⟩ := List.forall_mem_cons.mp h
    exact (sequenced_statement hst).append (ih hrest)

theorem sequenced_ackCycle (a : Bool) : Sequenced (ackCycle a) := by
  have before : Sequenced [.lineDir .sda .input, .delay 2, .lineWrite .scl true, .delay 3] :=
    sequenced_list (by simp)
  have after : Sequenced [.delay 2, .lineWrite .scl false, .delay 3, .lineDir .sda .output, .ackResult] :=
    sequenced_list (by simp)
  exact (before.append (sequenced_polling a)).append after

theorem sequenced_rule : PieceRule Sequenced where
  nil := .nil
  append := .append
  alone := fun _ hst => sequenced_statement (by rintro a rfl; cases hst)
  ack := sequenced_ackCycle

theorem sequenced_body (i : Instr) : Sequenced (body i) := by
  by_cases hi : ∃ l, i = .ldir l .input
  · obtain ⟨l, rfl⟩ := hi
    exact sequenced_list (by simp [body, ldirBody])
  · exact sequenced_rule.body fun l hl => hi ⟨l, hl⟩

/-- The sequencer's steps from a command's acceptance to its end answer what exec answers (R31, R38). -/
theorem ticksTo_exec (i : Instr) (s : State) :
    TicksTo (s.begin (body i)) (run (body i) (s.begin [])).finish := by
  have hsteps := sequenced_body i (s.begin []) [] rfl
  rw [List.append_nil] at hsteps
  refine TicksTo.trans hsteps ?_
  cases run_moves (body i) (s.begin []) with
  | goesOn hb _ _ =>
    rw [State.andThen_busy _ hb]
    have hend : tick ((run (body i) (s.begin [])).setCode []) = (run (body i) (s.begin [])).finish := by
      simp [tick, hb]
    exact hend ▸ .once _
  | raises c _ hb _ _ hq =>
    have hend : (run (body i) (s.begin [])).finish = run (body i) (s.begin []) := by
      rw [State.finish, ← hb, ← hq]
    rw [State.andThen_ended _ hb, hend]
    exact .refl _

/-! ## Steps of the machine -/

/-- With a silent host the machine's step is the sequencer's (log 2). -/
theorem step_silent {s : State} (h : s.host = []) : step s = .next (tick s) := by
  have hcount : s.countDown = s := by rw [State.countDown, h]; simp [← h]
  cases hb : s.busy <;> simp [step, stepOnce, sequencerMoves, h, hb, hcount, tick]

theorem run_core_silent (n : Nat) {s : State} (h : s.host = []) :
    Host.Core.run core n s = .next (ticks n s) := by
  induction n generalizing s with
  | zero => rfl
  | succ n ih =>
    have htick : (tick s).host = [] := by simp [h]
    have hstep : core.step s = .next (tick s) := step_silent h
    simp only [Host.Core.run, hstep]
    exact ih htick

/-- Settles O12: every piece of a body takes the sequencer's steps to where its run ends. -/
theorem sequencerStepsAgreeWithExec : Obligations.SequencerStepsAgreeWithExec := by
  unfold Obligations.SequencerStepsAgreeWithExec
  intro i s hs
  obtain ⟨n, hn⟩ := ticksTo_exec i s
  refine ⟨n, _, exec_eq_run i s, ?_⟩
  rw [← hn]
  exact run_core_silent n hs

end Sys2Proof.Machine
end

section
/-!
SUPPORT. What a switch of the multiplexer does to the pins and takes of the undefined values (R28, R30), and LMUX
(R104).
-/

namespace Sys2Proof.Machine

/-! ## Undefined values -/

theorem State.nextValue_of_head {s : State} {v : Word} (h : s.env.values.head? = some v) : s.nextValue = v := by
  simp [State.nextValue, List.headD_eq_head?_getD, h]

/-- The undefined values left after `k` changes of direction to OUT: DRAW uses one up for each (R28). -/
def State.valuesAfter (s : State) (k : Nat) : List Word :=
  match s.params.latchOnOut with
  | .retain => s.env.values
  | .draw => s.env.values.drop k

@[simp] theorem State.valuesAfter_zero (s : State) : s.valuesAfter 0 = s.env.values := by
  cases h : s.params.latchOnOut <;> simp [State.valuesAfter, h]

theorem State.valuesAfterOut_eq (s : State) : s.valuesAfterOut = s.valuesAfter 1 := by
  cases h : s.params.latchOnOut <;> simp [State.valuesAfterOut, State.valuesAfter, h]

/-- First `j` changes of direction to OUT and then `k` more. -/
theorem State.valuesAfter_add {s t : State} {j : Nat} (hp : t.params = s.params) (hv : t.env.values = s.valuesAfter j)
    (k : Nat) : t.valuesAfter k = s.valuesAfter (j + k) := by
  cases h : s.params.latchOnOut <;> simp [State.valuesAfter, hp, h] <;> simp [hv, State.valuesAfter, h]

/-- The next undefined value after `k` changes of direction to OUT, by its place among those listed. -/
theorem State.valuesAfter_head (s : State) (k : Nat) :
    (s.valuesAfter k).head? = s.env.values[if s.params.latchOnOut = .retain then 0 else k]? := by
  cases h : s.params.latchOnOut <;> simp [State.valuesAfter, h, List.head?_eq_getElem?]

/-! ## A switch that succeeds -/

theorem State.muxSet_ok_mux {s : State} {m : Mux} (hn : s.nextSwitch = true) : (s.muxSet m).mux = m := by
  simp [s.muxSet_ok m hn]

theorem State.muxSet_i2c_lines {s : State} (hn : s.nextSwitch = true) :
    (s.muxSet .i2c).scl = s.scl ∧ (s.muxSet .i2c).sda = s.sda := by
  simp [s.muxSet_ok .i2c hn]

theorem State.muxSet_gpio_linesOut {s : State} (hn : s.nextSwitch = true) : (s.muxSet .gpio).linesOut := by
  simp [s.muxSet_ok .gpio hn, State.linesOut]

theorem State.muxSet_gpio_retain {s : State} (hn : s.nextSwitch = true) (hr : s.params.latchOnOut = .retain) :
    (s.muxSet .gpio).scl.lat = s.scl.lat ∧ (s.muxSet .gpio).sda.lat = s.sda.lat := by
  simp [s.muxSet_ok .gpio hn, State.switchTo_gpio_sda_retain, hr]

/-- Under DRAW a switch to GPIO draws SCL's latch and then SDA's (R28, R30). -/
theorem State.switchTo_gpio_draw {s : State} (hd : s.params.latchOnOut = .draw) {v w : Word} {vs : List Word}
    (hv : s.env.values = v :: w :: vs) :
    (s.switchTo .gpio).scl.lat = v.getLsbD 0 ∧ (s.switchTo .gpio).sda.lat = w.getLsbD 0 := by
  simp [State.switchTo, State.latchAfterOut, State.nextValue, State.valuesAfterOut, hd, hv]

theorem State.muxSet_gpio_draw {s : State} (hn : s.nextSwitch = true) (hd : s.params.latchOnOut = .draw)
    {v w : Word} {vs : List Word} (hv : s.env.values = v :: w :: vs) :
    (s.muxSet .gpio).scl.lat = v.getLsbD 0 ∧ (s.muxSet .gpio).sda.lat = w.getLsbD 0 := by
  rw [s.muxSet_ok .gpio hn]
  exact State.switchTo_gpio_draw (s := s.takeSwitch) (by simpa using hd) (by simpa using hv)

theorem State.muxSet_gpio_values {s : State} (hn : s.nextSwitch = true) :
    (s.muxSet .gpio).env.values = s.valuesAfter 2 := by
  cases h : s.params.latchOnOut <;>
    simp [s.muxSet_ok .gpio hn, State.switchTo, State.valuesAfterOut, State.valuesAfter, h, ← List.drop_one]

/-! ## A switch that fails -/

/-- The pins drawn are the next undefined value, where one is listed (R30). -/
theorem State.muxSet_failed_pins {s : State} {m : Mux} {v : Word} (hn : s.nextSwitch = false)
    (hv : s.env.values.head? = some v) : pinsDrawnFrom v (s.muxSet m) := by
  have hv' : s.takeSwitch.nextValue = v := State.nextValue_of_head (by simpa using hv)
  rw [s.muxSet_failed m hn]
  exact hv' ▸ s.takeSwitch.drawPins_drawn

/-- The undefined value that stands for a pin state (R30; log 3). -/
def pinsWord (m : Mux) (scl sda : LineState) : Word :=
  0#11 ++ BitVec.ofBool sda.lat ++ BitVec.ofBool sda.dir.bit ++ BitVec.ofBool scl.lat ++ BitVec.ofBool scl.dir.bit
    ++ BitVec.ofBool m.bit

theorem pinsDrawnFrom_pinsWord (m : Mux) (scl sda : LineState) (t : State) :
    pinsDrawnFrom (pinsWord m scl sda) t ↔ t.mux = m ∧ t.scl = scl ∧ t.sda = sda := by
  obtain ⟨sclDir, sclLat⟩ := scl
  obtain ⟨sdaDir, sdaLat⟩ := sda
  unfold pinsDrawnFrom
  cases m <;> cases sclDir <;> cases sclLat <;> cases sdaDir <;> cases sdaLat <;> exact Iff.rfl

/-! ## LMUX -/

theorem exec_lmux (m : Mux) (s : State) : exec (.lmux m) s = .next (muxOrFault m (s.begin [])).finish := by
  simp [exec_eq_run, body, lmuxBody, run_cons, doStmt]

/-- Settles O33: LMUX whose switch succeeds is the switch. -/
theorem lmuxSwitchesThePins : Obligations.LmuxSwitchesThePins := by
  unfold Obligations.LmuxSwitchesThePins
  intro m s hs
  have hn : (s.begin []).nextSwitch = true := hs
  have hmux := State.muxSet_ok_mux (m := m) hn
  refine ⟨_, exec_lmux m s, ?_⟩
  rw [muxOrFault_ok m hn]
  refine ⟨hmux, ?_, ?_, by simp, by simp, ⟨rfl, rfl⟩, by simp [SameRest], ?_⟩
  · rintro rfl
    obtain ⟨hscl, hsda⟩ := State.muxSet_i2c_lines hn
    exact ⟨hscl, hsda, fun l => by simp [State.pin, hmux]⟩
  · rintro rfl
    have hout := State.muxSet_gpio_linesOut hn
    refine ⟨hout, fun l => ?_, fun hr => State.muxSet_gpio_retain hn hr,
      fun hd v w vs hv => State.muxSet_gpio_draw hn hd hv⟩
    cases l
    · simp [State.pin, hmux, hout.1]
    · simp [State.pin, hmux, hout.2]
  · exact hn ▸ ((s.begin []).muxSet_emits m).ofCommand

/-- Settles O34: LMUX whose switch fails draws the pins and raises PIN_RECONF, and a word of five bits stands for
every pin state. -/
theorem lmuxFailureRaisesPinReconf : Obligations.LmuxFailureRaisesPinReconf := by
  unfold Obligations.LmuxFailureRaisesPinReconf
  refine ⟨fun m s hs => ?_, fun m scl sda => ⟨_, pinsDrawnFrom_pinsWord m scl sda⟩⟩
  have hn : (s.begin []).nextSwitch = false := hs
  refine ⟨_, exec_lmux m s, ?_⟩
  rw [muxOrFault_failed m hn (by simp [Seq.idle])]
  refine ⟨rfl, by simp, fun v vs hv => ?_, by simp, by simp, ⟨rfl, rfl⟩, by simp, by simp, by simp, by simp, ?_⟩
  · exact State.muxSet_failed_pins (s := s.begin []) (m := m) hn (by simp [hv])
  · exact (hn ▸ ((s.begin []).muxSet_emits m)).of_eq rfl rfl rfl rfl

end Sys2Proof.Machine
end

section
/-!
SUPPORT. The ack cycle with its undefined values (R134, R28), and the two commands that end in it: SEND with W = 1
(R133) and RACK (R135).
-/

namespace Sys2Proof.Machine

theorem SameRest.params {s t : State} (h : SameRest s t) : t.params = s.params := by
  obtain ⟨_, _, _, hparams, _⟩ := h
  exact hparams

/-! ## The ack cycle -/

/-- The state of the ack cycle after its poll loop (R134). -/
def ackPolled (a : Bool) (s : State) : State :=
  pollLoop a Config.hw.ackPollMax
    (((((s.lineDir .sda .input).delay Config.hw.tPre).lineWrite .scl true).delay Config.hw.tPost).setPoll 0)

theorem run_ackCycle_eq (a : Bool) {s : State} (hb : s.busy = true) :
    run (ackCycle a) s =
      (((((ackPolled a s).delay Config.hw.tPre).lineWrite .scl false).delay Config.hw.tPost).lineDir .sda
        .output).setAckResult := by
  simp [ackCycle, ackPolled, run_cons, doStmt, hb]

@[simp] theorem ackPolled_values (a : Bool) (s : State) : (ackPolled a s).env.values = s.env.values := by
  simp [ackPolled]

@[simp] theorem ackPolled_params (a : Bool) (s : State) : (ackPolled a s).params = s.params := by
  simp [ackPolled]

/-- Of the undefined values the ack cycle takes what its one change of direction to OUT does (R28). -/
theorem run_ackCycle_values (a : Bool) {s : State} (hb : s.busy = true) :
    (run (ackCycle a) s).env.values = s.valuesAfter 1 := by
  rw [run_ackCycle_eq a hb, ← State.valuesAfterOut_eq]
  cases h : s.params.latchOnOut <;> simp [State.valuesAfterOut, h]

/-- Under DRAW the ack cycle leaves a drawn latch on SDA (R28). -/
theorem run_ackCycle_draw (a : Bool) {s : State} (hb : s.busy = true) (hd : s.params.latchOnOut = .draw) {x : Word}
    {xs : List Word} (hv : s.env.values = x :: xs) : (run (ackCycle a) s).sda.lat = x.getLsbD 0 := by
  rw [run_ackCycle_eq a hb]
  simp [State.latchAfterOut, State.nextValue, hd, hv]

/-- How a command that ends in an ack cycle ends (R134): the reads `rs` and the result they give, SCL LOW, SDA OUT
with its latch by the rule of R28, and everything else of the block as at the cycle's start. -/
structure AckEnd (a : Bool) (s t : State) (rs : List Bool) : Prop where
  reads    : ackReads a rs
  answered : answeredBy rs s.env.answers
  last     : rs.getLast? = some t.res
  missed   : t.timedOut = (t.res != a)
  steady   : Steady s t
  scl      : t.scl = { s.scl with lat := false }
  sdaOut   : t.sda.dir = .output
  retain   : s.params.latchOnOut = .retain → t.sda.lat = s.sda.lat
  draw     : s.params.latchOnOut = .draw → ∀ x xs, s.env.values = x :: xs → t.sda.lat = x.getLsbD 0
  values   : t.env.values = s.valuesAfter 1

theorem AckEnd.sclLow {a : Bool} {s t : State} {rs : List Bool} (h : AckEnd a s t rs) (hd : s.scl.dir = .output) :
    t.scl = ⟨.output, false⟩ := by
  simp [h.scl, hd]

theorem run_ackCycle_end (a : Bool) {s : State} (hb : s.busy = true) :
    ∃ rs, AckEnd a s (run (ackCycle a) s) rs ∧ Emits s (run (ackCycle a) s) (ackEvents a rs) := by
  obtain ⟨rs, hreads, hans, hlast, hmiss, hsteady, hscl, hsda, hretain, hE⟩ := run_ackCycle a hb
  exact ⟨rs, ⟨hreads, hans, hlast, hmiss, hsteady, hscl, hsda, hretain,
    fun hd _ _ hv => run_ackCycle_draw a hb hd hv, run_ackCycle_values a hb⟩, hE⟩

/-! ## SEND with W = 1 -/

/-- SEND's bit loop takes no undefined value. -/
theorem run_bitPeriods_values (v : Byte) (n : Nat) (is : List Nat) {s : State} (hb : s.busy = true) :
    (run (is.flatMap (bitPeriod v n)) s).env.values = s.env.values := by
  induction is generalizing s with
  | nil => rfl
  | cons i rest ih =>
    have hbit : (run (bitPeriod v n i) s).busy = true ∧
        (run (bitPeriod v n i) s).env.values = s.env.values := by
      simp [bitPeriod, run_cons, doStmt, hb]
    rw [List.flatMap_cons, run_append hb, State.andThen_busy _ hbit.1, ih hbit.1, hbit.2]

/-- The state between SEND's bit loop and its ending (R133): SCL LOW and SDA at the last bit, if there was one. -/
structure BitsSent (v : Byte) (n : Nat) (s t : State) : Prop where
  steady  : Steady s t
  answers : t.env.answers = s.env.answers
  values  : t.env.values = s.env.values
  dirs    : t.scl.dir = s.scl.dir ∧ t.sda.dir = s.sda.dir
  lats    : 1 ≤ n → t.scl.lat = false ∧ t.sda.lat = frameBit s.params.frameBits v n (n - 1)
  emits   : Emits s t (frameEvents s.params.frameBits v n)

theorem run_bitLoop (v : Byte) (n : Nat) {s : State} (hb : s.busy = true) :
    BitsSent v n s (run (bitLoop v n) s) := by
  obtain ⟨hsteady, _, _, hans, hscl, hsda, hE⟩ := run_bitPeriods v n (List.range n) hb
  refine ⟨hsteady, hans, run_bitPeriods_values v n _ hb, ?_, fun hn => ?_, hE⟩
  · exact ⟨(congrArg LineState.dir hscl :), (congrArg LineState.dir hsda :)⟩
  · have hne : n ≠ 0 := by omega
    refine ⟨(congrArg LineState.lat hscl).trans (by simp [hne]), (congrArg LineState.lat hsda).trans ?_⟩
    simp [List.getLast?_range, hne]

/-- SEND with W = 1 is its bit loop and then the ack cycle (R133). -/
theorem run_sendAck {v : Byte} {n : Nat} {a : Bool} {s : State} (hb : s.busy = true) (hg : s.gpioOut) :
    ∃ u rs, BitsSent v n s u ∧ AckEnd a u (run (sendBody v n a true) s) rs ∧
      Emits s (run (sendBody v n a true) s) (frameEvents s.params.frameBits v n ++ ackEvents a rs) := by
  have hbits := run_bitLoop v n hb
  have hbusy : (run (bitLoop v n) s).busy = true := hbits.steady.busy.trans hb
  have hrun : run (sendBody v n a true) s = run (ackCycle a) (run (bitLoop v n) s) := by
    rw [sendBody, List.cons_append, run_checked hb hg, if_pos rfl, run_append hb, State.andThen_busy _ hbusy]
  obtain ⟨rs, hack, hE⟩ := run_ackCycle_end a hbusy
  rw [hrun]
  exact ⟨_, rs, hbits, hack, hbits.emits.trans hE⟩

/-- Settles O39: SEND with W = 1 is its bit loop and then the ack cycle. -/
theorem sendWithAck : Obligations.SendWithAck := by
  unfold Obligations.SendWithAck
  intro v n a s hn _ hg
  obtain ⟨u, rs, hbits, hack, hE⟩ := run_sendAck (v := v) (n := n) (a := a) (s := s.begin []) rfl hg
  have hsteady := hbits.steady.trans hack.steady
  have hparams : u.params = s.params := hbits.steady.rest.params
  obtain ⟨hscl, hsda⟩ := hbits.lats hn
  refine ⟨_, rs, exec_eq_run (.send v n a true) s, hack.reads, ?_, hack.last, hack.missed,
    hack.sclLow (hbits.dirs.1.trans hg.2.1), hack.sdaOut, hsteady.mux.trans hg.1, fun hr => ?_,
    fun hd x xs hv => ?_, ⟨rfl, rfl⟩, hsteady.rest, hE.ofCommand⟩
  · exact hbits.answers ▸ hack.answered
  · exact (hack.retain (hparams ▸ hr)).trans hsda
  · exact hack.draw (hparams ▸ hd) x xs (hbits.values.trans hv)

/-! ## RACK -/

/-- Settles O40: RACK is its mode check and then the ack cycle. -/
theorem rackIsTheAckCycle : Obligations.RackIsTheAckCycle := by
  unfold Obligations.RackIsTheAckCycle
  intro a s
  refine ⟨fun hg => ?_, fun hr => ?_, by cases a <;> decide⟩
  · have hrun : run (body (.rack a)) (s.begin []) = run (ackCycle a) (s.begin []) := run_checked rfl hg
    obtain ⟨rs, hack, hE⟩ := run_ackCycle_end a (s := s.begin []) rfl
    rw [exec_eq_run, hrun]
    exact ⟨_, rs, rfl, hack.reads, hack.answered, hack.last, hack.missed, hack.sclLow hg.2.1, hack.sdaOut,
      hack.steady.mux.trans hg.1, hack.retain, hack.draw, ⟨rfl, rfl⟩, hack.steady.rest, hE.ofCommand⟩
  · have hrun : run (body (.rack a)) (s.begin []) = (s.begin []).raise .modeErr := run_checkFails hr
    rw [exec_eq_run, hrun]
    rfl

end Sys2Proof.Machine
end

section
/-!
SUPPORT. Pieces of a body that go on to their end wherever MUX = GPIO and both lines are OUT: START, STOP, SEND and
the ack cycle (R130 to R135), and STORE's steps 2 to 7 out of them (R172 to R178).
-/

namespace Sys2Proof.Machine

/-! ## Signal runs -/

/-- A run of a piece of the signal layer: the command goes on, with the pins as a signal command asks for, `evs` on
the trace and as many undefined values used up as `k` changes of direction to OUT do (R28). -/
structure SignalRun (s t : State) (evs : List Event) (k : Nat) : Prop where
  busy     : t.busy = true
  out      : t.gpioOut
  rest     : SameRest s t
  switches : t.env.switches = s.env.switches
  values   : t.env.values = s.valuesAfter k
  emits    : Emits s t evs

theorem SignalRun.params {s t : State} {evs : List Event} {k : Nat} (h : SignalRun s t evs k) :
    t.params = s.params :=
  h.rest.params

theorem SignalRun.refl {s : State} (hb : s.busy = true) (hg : s.gpioOut) : SignalRun s s [] 0 :=
  ⟨hb, hg, .refl s, rfl, by simp, .refl s⟩

theorem SignalRun.trans {s t u : State} {evs evs' : List Event} {j k : Nat} (h : SignalRun s t evs j)
    (h' : SignalRun t u evs' k) : SignalRun s u (evs ++ evs') (j + k) :=
  ⟨h'.busy, h'.out, h.rest.trans h'.rest, h'.switches.trans h.switches,
    h'.values.trans (State.valuesAfter_add h.params h.values k), h.emits.trans h'.emits⟩

/-- Plain statements that turn no line are a signal run (R26, R33). -/
theorem doStmt_signalRun {st : Stmt} {evs : List Event} (h : st.plainEvents = some evs) (hl : ∀ l d, st ≠ .lineDir l d)
    {s : State} (hb : s.busy = true) (hg : s.gpioOut) : SignalRun s (doStmt st s) evs 0 := by
  obtain ⟨hbusy, hE⟩ := doStmt_plain h s
  cases st with
  | requireGpio | requireGpioOut | readResult | muxSet | restore | frameBit | poll => cases h
  | lineDir l d => exact absurd rfl (hl l d)
  | lineWrite l v =>
    exact ⟨hbusy.trans hb, by cases l <;> simpa [doStmt, State.gpioOut] using hg, by simp [doStmt, SameRest],
      by simp [doStmt], by simp [doStmt], hE⟩
  | _ => exact ⟨hbusy.trans hb, hg, by simp [doStmt, SameRest], by simp [doStmt], by simp [doStmt], hE⟩

theorem run_plainCode {code : List Stmt} {evs : List (List Event)} (h : code.map Stmt.plainEvents = evs.map some)
    (hl : ∀ l d, .lineDir l d ∉ code) {s : State} (hb : s.busy = true) (hg : s.gpioOut) :
    SignalRun s (run code s) evs.flatten 0 := by
  induction code generalizing s evs with
  | nil =>
    obtain rfl : evs = [] := by simpa using h.symm
    exact .refl hb hg
  | cons st rest ih =>
    cases evs with
    | nil => simp at h
    | cons e es =>
      obtain ⟨he, hes⟩ := List.cons.inj h
      have hst := doStmt_signalRun he (fun l d hd => hl l d (by simp [hd])) hb hg
      have hrest := ih hes (fun l d hd => hl l d (List.mem_cons_of_mem _ hd)) hst.busy hst.out
      rw [run_cons, State.andThen_busy _ hst.busy]
      exact hst.trans hrest

/-! ## Signal pieces -/

/-- An event that is not polling (R134). -/
def notPoll (e : Event) : Bool := !isPoll e

/-- Wherever a signal command may run, `code` is a signal run that shows `sig` on the trace, its polling left out. -/
def Signals (code : List Stmt) (sig : Config.FrameBitSelect → List Event) (k : Nat) : Prop :=
  ∀ s : State, s.busy = true → s.gpioOut →
    ∃ evs, SignalRun s (run code s) evs k ∧ evs.filter notPoll = sig s.params.frameBits

namespace Signals

variable {a b : List Stmt} {sig sig' : Config.FrameBitSelect → List Event} {j k : Nat}

theorem append (ha : Signals a sig j) (hb : Signals b sig' k) :
    Signals (a ++ b) (fun sel => sig sel ++ sig' sel) (j + k) := by
  intro s hs hg
  obtain ⟨evs, hrun, hsig⟩ := ha s hs hg
  obtain ⟨evs', hrun', hsig'⟩ := hb _ hrun.busy hrun.out
  rw [run_append hs, State.andThen_busy _ hrun.busy]
  exact ⟨_, hrun.trans hrun', by rw [List.filter_append, hsig, hsig', hrun.params]⟩

theorem congr (h : Signals a sig k) (hsig : ∀ sel, sig sel = sig' sel) : Signals a sig' k := by
  obtain rfl : sig = sig' := funext hsig
  exact h

theorem checked (h : Signals a sig k) : Signals (.requireGpioOut :: a) sig k := by
  intro s hs hg
  rw [run_checked hs hg]
  exact h s hs hg

theorem plain {evs : List (List Event)} (h : a.map Stmt.plainEvents = evs.map some) (hl : ∀ l d, .lineDir l d ∉ a)
    (hp : evs.flatten.filter notPoll = evs.flatten) : Signals a (fun _ => evs.flatten) 0 :=
  fun _ hs hg => ⟨_, run_plainCode h hl hs hg, hp⟩

theorem storeStep (n : Nat) (h : Signals a sig k) : Signals (.storeStep n :: a) sig k := by
  have hstep : Signals [.storeStep n] (fun _ => []) 0 := plain (evs := [[]]) rfl (by simp) rfl
  simpa using hstep.append h

theorem start : Signals startBody (fun _ => startEvents) 0 :=
  checked (plain (evs := startEvents.map ([·])) rfl (by simp) rfl)

theorem stop : Signals stopBody (fun _ => stopEvents) 0 :=
  checked (plain (evs := stopEvents.map ([·])) rfl (by simp) rfl)

theorem noAckEnd (x : Bool) : Signals (noAckEnd x) (fun _ => noAckEvents) 0 :=
  plain (evs := [[.write .sda false], [.write .scl true], []]) rfl (by simp [Machine.noAckEnd]) rfl

theorem frameEvents_notPoll (sel : Config.FrameBitSelect) (v : Byte) (n : Nat) :
    (frameEvents sel v n).filter notPoll = frameEvents sel v n := by
  rw [List.filter_eq_self]
  intro e he
  obtain ⟨i, _, hi⟩ := List.mem_flatMap.mp he
  generalize frameBit sel v n i = x at hi
  simp only [bitEvents, List.mem_cons, List.not_mem_nil, or_false] at hi
  rcases hi with rfl | rfl | rfl | rfl | rfl | rfl <;> rfl

theorem bitLoop (v : Byte) (n : Nat) : Signals (bitLoop v n) (fun sel => frameEvents sel v n) 0 := by
  intro s hs hg
  have h := run_bitLoop v n hs
  exact ⟨_, ⟨h.steady.busy.trans hs, ⟨h.steady.mux.trans hg.1, h.dirs.1.trans hg.2.1, h.dirs.2.trans hg.2.2⟩,
    h.steady.rest, h.steady.switches, by simp [h.values], h.emits⟩, frameEvents_notPoll _ v n⟩

end Signals

/-! ## The ack cycle as a signal piece -/

theorem pollEvents_cons (a r : Bool) (rs : List Bool) :
    pollEvents a (r :: rs) = pollEvents a [r] ++ pollEvents a rs := by
  simp [pollEvents]

theorem pollEvents_notPoll (a : Bool) (rs : List Bool) : (pollEvents a rs).filter notPoll = [] := by
  induction rs with
  | nil => rfl
  | cons r rs ih =>
    have hr : (pollEvents a [r]).filter notPoll = [] := by cases a <;> cases r <;> rfl
    rw [pollEvents_cons, List.filter_append, hr, ih, List.append_nil]

theorem pollEvents_reads (a : Bool) (rs : List Bool) :
    (pollEvents a rs).filter Event.isRead = rs.map (Event.read .sda) := by
  induction rs with
  | nil => rfl
  | cons r rs ih =>
    have hr : (pollEvents a [r]).filter Event.isRead = [.read .sda r] := by cases a <;> cases r <;> rfl
    rw [pollEvents_cons, List.filter_append, hr, ih, List.map_cons, List.singleton_append]

/-- The ack cycle's events, its polling left out (R134). -/
def ackSignal : List Event :=
  [.dir .sda .input, .delay 2, .write .scl true, .delay 3, .delay 2, .write .scl false, .delay 3, .dir .sda .output]

theorem ackEvents_notPoll (a : Bool) (rs : List Bool) : (ackEvents a rs).filter notPoll = ackSignal := by
  simp only [ackEvents, List.filter_append, pollEvents_notPoll]
  rfl

theorem ackEvents_reads (a : Bool) (rs : List Bool) :
    (ackEvents a rs).filter Event.isRead = rs.map (Event.read .sda) := by
  simp [ackEvents, pollEvents_reads, Event.isRead]

/-- RES is the level of the last read on the trace, and TO whether it missed the level `a` (R134, R39). -/
def ReportsLastRead (a : Bool) (evs : List Event) (t : State) : Prop :=
  t.timedOut = (t.res != a) ∧ (evs.filter Event.isRead).getLast? = some (.read .sda t.res)

theorem ReportsLastRead.after {a : Bool} {evs : List Event} {t : State} (pre : List Event)
    (h : ReportsLastRead a evs t) : ReportsLastRead a (pre ++ evs) t :=
  ⟨h.1, by simp [List.filter_append, List.getLast?_append, h.2]⟩

/-- What follows the last read, and keeps RES and TO. -/
theorem ReportsLastRead.before {a : Bool} {evs post : List Event} {t u : State} (h : ReportsLastRead a evs t)
    (hpost : post.filter Event.isRead = []) (hres : u.res = t.res) (hto : u.timedOut = t.timedOut) :
    ReportsLastRead a (evs ++ post) u :=
  ⟨by rw [hres, hto]; exact h.1, by simp [List.filter_append, hpost, hres, h.2]⟩

/-- SEND with W = 1 as a signal run that ends with the result of its ack cycle (R133). -/
theorem run_sendAck_signal (v : Byte) (n : Nat) (a : Bool) {s : State} (hb : s.busy = true) (hg : s.gpioOut) :
    ∃ evs, SignalRun s (run (sendBody v n a true) s) evs 1 ∧
      evs.filter notPoll = sendSignal s.params.frameBits v n ∧
      ReportsLastRead a evs (run (sendBody v n a true) s) := by
  obtain ⟨u, rs, hbits, hack, hE⟩ := run_sendAck (v := v) (n := n) (a := a) hb hg
  have hsteady := hbits.steady.trans hack.steady
  have hscl := hack.sclLow (hbits.dirs.1.trans hg.2.1)
  have hvalues : u.valuesAfter 1 = s.valuesAfter 1 :=
    State.valuesAfter_add (j := 0) hbits.steady.rest.params (by simp [hbits.values]) 1
  have hlast : ReportsLastRead a (ackEvents a rs) (run (sendBody v n a true) s) :=
    ⟨hack.missed, by simp [ackEvents_reads, hack.last]⟩
  refine ⟨_, ⟨hsteady.busy.trans hb, ⟨hsteady.mux.trans hg.1, by rw [hscl], hack.sdaOut⟩, hsteady.rest,
    hsteady.switches, hack.values.trans hvalues, hE⟩, ?_, hlast.after _⟩
  rw [List.filter_append, Signals.frameEvents_notPoll, ackEvents_notPoll]
  rfl

namespace Signals

theorem sendAck (v : Byte) (n : Nat) (a : Bool) :
    Signals (sendBody v n a true) (fun sel => sendSignal sel v n) 1 := by
  intro s hs hg
  obtain ⟨evs, hrun, hsig, _⟩ := run_sendAck_signal v n a hs hg
  exact ⟨evs, hrun, hsig⟩

theorem sendNoAck (v : Byte) (n : Nat) (a : Bool) :
    Signals (sendBody v n a false) (fun sel => frameEvents sel v n ++ noAckEvents) 0 :=
  checked ((bitLoop v n).append (noAckEnd a))

theorem rack (a : Bool) : Signals (rackBody a) (fun _ => ackSignal) 1 := by
  refine checked fun s hs hg => ?_
  obtain ⟨rs, hack, hE⟩ := run_ackCycle_end a hs
  exact ⟨_, ⟨hack.steady.busy.trans hs,
    ⟨hack.steady.mux.trans hg.1, by rw [hack.sclLow hg.2.1], hack.sdaOut⟩, hack.steady.rest, hack.steady.switches,
    hack.values, hE⟩, ackEvents_notPoll a rs⟩

/-! ## STORE's steps 2 to 7 -/

theorem head : Signals headSteps headSignal 0 := by
  have h := (start.append (sendNoAck 0x02#8 3 false)).append stop
  exact h.congr fun sel => by simp [headSignal]

theorem pairStart : Signals (startBody ++ sendDefault Config.hw.addr)
    (fun sel => startEvents ++ sendSignal sel 0x10#8 8) 1 :=
  start.append (sendAck _ _ _)

theorem pair (cmd : Byte) : Signals (pairSteps cmd)
    (fun sel => startEvents ++ sendSignal sel 0x10#8 8 ++ sendSignal sel cmd 8 ++ stopEvents) 2 :=
  (pairStart.append (sendAck cmd 8 false)).append stop

theorem sends (v : Byte) (n : Nat) (a : Bool) (k : Nat) :
    Signals (List.replicate k (sendBody v n a true)).flatten
      (fun sel => (List.replicate k (sendSignal sel v n)).flatten) k := by
  induction k with
  | zero => exact plain (evs := []) rfl (by simp) rfl
  | succ k ih => simpa [List.replicate_succ, Nat.add_comm 1 k] using (sendAck v n a).append ih

theorem address (da : BitVec 7) : Signals (addressSteps da)
    (fun sel => startEvents ++ sendSignal sel (addressByte da) 8
      ++ (List.replicate 8 (sendSignal sel 0x00#8 8)).flatten ++ stopEvents) 9 :=
  ((start.append (sendAck _ _ _)).append (sends 0x00#8 8 true 8)).append stop

theorem wait : Signals [.storeStep 5, .delay (1000 * Config.hw.storeDelayMs)] (fun _ => [.delay 10000]) 0 :=
  storeStep 5 (plain (evs := [[.delay 10000]]) rfl (by simp) rfl)

end Signals

end Sys2Proof.Machine
end

section
/-!
SUPPORT. STORE between its two switches, and how its run ends: STORE whose last switch fails (R172, R181), and that a
command whose mode check passes raises nothing but PIN_RECONF (R208, R182).
-/

namespace Sys2Proof.Machine

/-! ## STORE between its switches -/

/-- STORE's steps 2 to 7 up to the last internal SEND (R172 to R178). -/
def storeBeforeLastSend (da : BitVec 7) : List Stmt :=
  .storeStep 2 :: headSteps ++ .storeStep 3 :: pairSteps Config.hw.cmd1 ++ .storeStep 4 :: addressSteps da
    ++ [.storeStep 5, .delay (1000 * Config.hw.storeDelayMs)] ++ .storeStep 6 :: headSteps
    ++ .storeStep 7 :: (startBody ++ sendDefault Config.hw.addr)

/-- STORE's steps 2 to 7 (R172). -/
def storeMiddle (da : BitVec 7) : List Stmt :=
  storeBeforeLastSend da ++ (sendDefault Config.hw.cmd2 ++ stopBody)

/-- STORE's step 8 and its end (R172). -/
def storeEnd : List Stmt :=
  [.storeStep 8, .muxSet .i2c, .result false false]

theorem storeBody_eq (da : BitVec 7) :
    storeBody da = [.storeStep 1, .muxSet .gpio] ++ (storeMiddle da ++ storeEnd) := by
  simp [storeBody, storeMiddle, storeBeforeLastSend, storeEnd, pairSteps]

theorem addressByte_eq (da : BitVec 7) : addressByte da = da ++ 0#1 := by
  revert da
  decide

/-- What steps 2 to 7 show on the trace up to the last internal SEND, polling left out. -/
def storeSignalBeforeLastSend (da : BitVec 7) (sel : Config.FrameBitSelect) : List Event :=
  headSignal sel ++ (startEvents ++ sendSignal sel 0x10#8 8 ++ sendSignal sel 0x03#8 8 ++ stopEvents)
    ++ (startEvents ++ sendSignal sel (addressByte da) 8
        ++ (List.replicate 8 (sendSignal sel 0x00#8 8)).flatten ++ stopEvents)
    ++ [.delay 10000] ++ headSignal sel ++ (startEvents ++ sendSignal sel 0x10#8 8)

theorem storeSignal_eq (sel : Config.FrameBitSelect) (da : BitVec 7) :
    storeSignal sel da =
      .mux .gpio true :: (storeSignalBeforeLastSend da sel ++ (sendSignal sel 0x00#8 8 ++ stopEvents)) := by
  simp [storeSignal, storeSignalBeforeLastSend, addressByte_eq]

theorem Signals.storeBeforeLastSend (da : BitVec 7) :
    Signals (storeBeforeLastSend da) (storeSignalBeforeLastSend da) 12 :=
  (((((storeStep 2 head).append (storeStep 3 (pair _))).append (storeStep 4 (address da))).append wait).append
    (storeStep 6 head)).append (storeStep 7 pairStart)

theorem run_stopBody {s : State} (hb : s.busy = true) (hg : s.gpioOut) :
    SignalRun s (run stopBody s) stopEvents 0 := by
  rw [stopBody, run_checked hb hg]
  exact run_plainCode (evs := stopEvents.map ([·])) rfl (by simp) hb hg

/-- A SEND with W = 1 and a STOP after it, which keeps the SEND's result (R133, R131). -/
theorem run_sendAck_stop (v : Byte) (n : Nat) (a : Bool) {s : State} (hb : s.busy = true) (hg : s.gpioOut) :
    ∃ evs, SignalRun s (run (sendBody v n a true ++ stopBody) s) evs 1 ∧
      evs.filter notPoll = sendSignal s.params.frameBits v n ++ stopEvents ∧
      ReportsLastRead a evs (run (sendBody v n a true ++ stopBody) s) := by
  obtain ⟨evs, hrun, hsig, hlast⟩ := run_sendAck_signal v n a hb hg
  rw [run_append hb, State.andThen_busy _ hrun.busy]
  generalize run (sendBody v n a true) s = u at hrun hlast
  have hstop := run_stopBody hrun.busy hrun.out
  have hresult : (run stopBody u).res = u.res ∧ (run stopBody u).timedOut = u.timedOut := by
    simp [stopBody, run_checked hrun.busy hrun.out, run_cons, doStmt, hrun.busy]
  exact ⟨_, hrun.trans hstop, by rw [List.filter_append, hsig]; rfl,
    hlast.before rfl hresult.1 hresult.2⟩

/-- STORE's steps 2 to 7, wherever a signal command may run: the trace of R172 to R178, and RES and TO from the last
internal SEND, which expects level 0 (R39). -/
theorem run_storeMiddle (da : BitVec 7) {s : State} (hb : s.busy = true) (hg : s.gpioOut) :
    ∃ evs, SignalRun s (run (storeMiddle da) s) evs 13 ∧
      .mux .gpio true :: evs.filter notPoll = storeSignal s.params.frameBits da ∧
      ReportsLastRead false evs (run (storeMiddle da) s) := by
  obtain ⟨evs, hrun, hsig⟩ := Signals.storeBeforeLastSend da s hb hg
  obtain ⟨evs', hrun', hsig', hlast⟩ := run_sendAck_stop Config.hw.cmd2 8 false hrun.busy hrun.out
  have hmiddle : run (storeMiddle da) s = run (sendBody Config.hw.cmd2 8 false true ++ stopBody)
      (run (storeBeforeLastSend da) s) := by
    rw [storeMiddle, run_append hb, State.andThen_busy _ hrun.busy]
    rfl
  rw [hmiddle]
  refine ⟨_, hrun.trans hrun', ?_, hlast.after _⟩
  rw [List.filter_append, hsig, hsig', hrun.params, storeSignal_eq]
  rfl

/-! ## STORE's switches -/

/-- STORE whose first switch succeeds goes on with its steps 2 to 7 and its end (R172). -/
theorem run_storeSwitched (da : BitVec 7) {s : State} (hb : s.busy = true) (hn : s.nextSwitch = true) :
    run (storeBody da) s = run (storeMiddle da ++ storeEnd) ((s.setStep 1).muxSet .gpio) := by
  have hfirst : run [.storeStep 1, .muxSet .gpio] s = (s.setStep 1).muxSet .gpio := by
    simp [run_cons, doStmt, hb, muxOrFault_ok (s := s.setStep 1) .gpio hn]
  rw [storeBody_eq, run_append hb, hfirst, State.andThen_busy _ (by simpa using hb)]

theorem muxSet_gpioOut {s : State} (hn : s.nextSwitch = true) : (s.muxSet .gpio).gpioOut :=
  ⟨State.muxSet_ok_mux hn, State.muxSet_gpio_linesOut hn⟩

theorem muxSet_ok_switches {s : State} (m : Mux) (hn : s.nextSwitch = true) :
    (s.muxSet m).env.switches = s.takeSwitch.env.switches := by
  cases m <;> simp [s.muxSet_ok _ hn, State.switchTo]

/-- Only a switch that can fail, fails (R30). -/
theorem canFail_of_failed {s : State} (hn : s.nextSwitch = false) : s.params.muxCanFail = true := by
  cases hc : s.params.muxCanFail
  · simp [s.nextSwitch_of_cannotFail hc] at hn
  · rfl

/-- STORE's steps 1 to 7 have run from `s` to `t`, with `evs` on the trace (R172 to R178). -/
structure StoreSevenSteps (da : BitVec 7) (s t : State) (evs : List Event) : Prop where
  run      : run (storeBody da) s = run storeEnd t
  busy     : t.busy = true
  rest     : SameRest s t
  switches : t.env.switches = s.takeSwitch.env.switches
  values   : t.env.values = s.valuesAfter 15
  emits    : Emits s t evs
  signal   : evs.filter notPoll = storeSignal s.params.frameBits da
  result   : ReportsLastRead false evs t

/-- STORE whose first switch succeeds runs its steps 1 to 7, whatever the acknowledgments (R172, R179). -/
theorem run_storeSevenSteps (da : BitVec 7) {s : State} (hb : s.busy = true) (hn : s.nextSwitch = true) :
    ∃ t evs, StoreSevenSteps da s t evs := by
  have hn1 : (s.setStep 1).nextSwitch = true := hn
  have hswitch := run_storeSwitched da hb hn
  have hbusy : ((s.setStep 1).muxSet .gpio).busy = true := by simpa using hb
  have hrest : SameRest s ((s.setStep 1).muxSet .gpio) := by simp [SameRest]
  have hvalues : ((s.setStep 1).muxSet .gpio).env.values = s.valuesAfter 2 := State.muxSet_gpio_values hn1
  have hE : Emits s ((s.setStep 1).muxSet .gpio) [.mux .gpio true] :=
    hn1 ▸ ((s.setStep 1).muxSet_emits .gpio).of_eq rfl rfl rfl rfl
  have hswitches : ((s.setStep 1).muxSet .gpio).env.switches = s.takeSwitch.env.switches := by
    rw [muxSet_ok_switches .gpio hn1]
    cases hc : s.params.muxCanFail <;> simp [State.takeSwitch, hc]
  obtain ⟨evs, hrun, hsig, hlast⟩ := run_storeMiddle da hbusy (muxSet_gpioOut hn1)
  refine ⟨_, _, ⟨?_, hrun.busy, hrest.trans hrun.rest, hrun.switches.trans hswitches,
    hrun.values.trans (State.valuesAfter_add (by simp) hvalues 13), hE.trans hrun.emits, ?_, hlast.after _⟩⟩
  · rw [hswitch, run_append hbusy, State.andThen_busy _ hrun.busy]
  · rw [hrest.params] at hsig
    exact hsig

theorem run_storeEnd_failed {s : State} (hn : s.nextSwitch = false) (hb : s.busy = true) :
    run storeEnd s = ((s.setStep 8).muxSet .i2c).raise .pinReconf := by
  simp [storeEnd, run_cons, doStmt, hb, muxOrFault_failed (s := s.setStep 8) .i2c hn (by simp)]

theorem run_storeEnd_ok {s : State} (hn : s.nextSwitch = true) (hb : s.busy = true) :
    run storeEnd s = ((s.setStep 8).muxSet .i2c).setResult false false := by
  simp [storeEnd, run_cons, doStmt, hb, muxOrFault_ok (s := s.setStep 8) .i2c hn]

/-- Settles O48: steps 1 to 7 run, and then the switch back fails and raises PIN_RECONF. -/
theorem storeStepEightFailure : Obligations.StoreStepEightFailure := by
  unfold Obligations.StoreStepEightFailure
  intro da s hs
  obtain ⟨hcan, rest, hsw⟩ := hs
  have hn : (s.begin []).nextSwitch = true := by simp [State.nextSwitch, hcan, hsw]
  obtain ⟨u, evs, h⟩ := run_storeSevenSteps da (s := s.begin []) rfl hn
  obtain ⟨hfault, herr, hcmd, hparams, hhost, hread⟩ := h.rest
  have hswitches : u.env.switches = false :: rest := by
    rw [h.switches]
    simp [State.takeSwitch, hcan, hsw]
  have hn8 : (u.setStep 8).nextSwitch = false := by simp [State.nextSwitch, hparams, hcan, hswitches]
  have hrun : run (body (.store da)) (s.begin []) = ((u.setStep 8).muxSet .i2c).raise .pinReconf :=
    h.run.trans (run_storeEnd_failed hn8 h.busy)
  have hE : Emits u ((u.setStep 8).muxSet .i2c) [.mux .i2c false] :=
    hn8 ▸ ((u.setStep 8).muxSet_emits .i2c).of_eq rfl rfl rfl rfl
  have htrace : Emits s (((u.setStep 8).muxSet .i2c).raise .pinReconf).finish (evs ++ [.mux .i2c false]) :=
    (h.emits.trans hE).of_eq rfl rfl rfl rfl
  have hvalues : (u.setStep 8).env.values.head? =
      s.env.values[if s.params.latchOnOut = .retain then 0 else 15]? :=
    (congrArg List.head? h.values).trans ((s.begin []).valuesAfter_head 15)
  have hresult : ReportsLastRead false (evs ++ [.mux .i2c false]) ((u.setStep 8).muxSet .i2c) :=
    h.result.before rfl (by simp) (by simp)
  rw [exec_eq_run, hrun]
  refine ⟨_, evs ++ [.mux .i2c false], rfl, rfl, by simp [hfault, herr], fun v hv => ?_, ?_, ⟨rfl, rfl⟩, by simp [hcmd],
    by simp [hparams], by simp [hhost], by simp [hread], htrace, hresult.2, ?_⟩
  · exact State.muxSet_failed_pins (m := .i2c) hn8 (hvalues.trans hv)
  · simpa using hresult.1
  · exact (List.filter_append ..).trans (congrArg (· ++ [Event.mux .i2c false]) h.signal)

/-! ## What a command that passes its mode check can raise -/

/-- From `s` to `t` nothing was raised, or PIN_RECONF, after a switch that can fail (R30, R204, R205). -/
def RaisesOnlyPinReconf (s t : State) : Prop :=
  (t.fault = s.fault ∧ t.err = s.err) ∨
    (t.fault = true ∧ (t.err = if s.fault then s.err else .pinReconf) ∧ s.params.muxCanFail = true)

/-- A switch with its caller's reaction raises nothing but PIN_RECONF. -/
theorem muxOrFault_raises (m : Mux) (s : State) : RaisesOnlyPinReconf s (muxOrFault m s) := by
  cases hn : s.nextSwitch
  · have hcan := canFail_of_failed hn
    by_cases h1 : s.seq.step = 1
    · rw [muxOrFault_failed_first m hn h1]
      exact .inr ⟨rfl, by simp [restorePins], hcan⟩
    · rw [muxOrFault_failed m hn h1]
      exact .inr ⟨rfl, by simp, hcan⟩
  · rw [muxOrFault_ok m hn]
    exact .inl ⟨by simp, by simp⟩

/-- STORE whose first switch fails runs no other step (R181). -/
theorem run_storeNotSwitched (da : BitVec 7) {s : State} (hb : s.busy = true) (hn : s.nextSwitch = false) :
    run (storeBody da) s = muxOrFault .gpio (s.setStep 1) := by
  have hended : (muxOrFault .gpio (s.setStep 1)).busy = false := muxOrFault_failed_busy _ hn
  simp [storeBody_eq, run_cons, doStmt, hb, hended]

theorem run_storeEnd_raises {s : State} (hb : s.busy = true) : RaisesOnlyPinReconf s (run storeEnd s) := by
  cases hn : s.nextSwitch
  · rw [run_storeEnd_failed hn hb]
    exact .inr ⟨rfl, by simp, canFail_of_failed hn⟩
  · rw [run_storeEnd_ok hn hb]
    exact .inl ⟨by simp, by simp⟩

theorem run_store_raises (da : BitVec 7) {s : State} (hb : s.busy = true) :
    RaisesOnlyPinReconf s (run (storeBody da) s) := by
  cases hn : s.nextSwitch
  · rw [run_storeNotSwitched da hb hn]
    exact muxOrFault_raises .gpio (s.setStep 1)
  · obtain ⟨u, evs, h⟩ := run_storeSevenSteps da hb hn
    obtain ⟨hfault, herr, _, hparams, _⟩ := h.rest
    rw [h.run]
    simpa only [RaisesOnlyPinReconf, hfault, herr, hparams] using run_storeEnd_raises h.busy

/-- A signal piece raises nothing. -/
theorem Signals.keepsFault {code : List Stmt} {sig : Config.FrameBitSelect → List Event} {k : Nat}
    (h : Signals code sig k) {s : State} (hb : s.busy = true) (hg : s.gpioOut) :
    (run code s).fault = s.fault ∧ (run code s).err = s.err := by
  obtain ⟨_, hrun, _⟩ := h s hb hg
  obtain ⟨hfault, herr, _⟩ := hrun.rest
  exact ⟨hfault, herr⟩

/-- A command that switches nothing raises nothing once its mode check has passed (R206, R208). -/
theorem run_ready_keepsFault {i : Instr} (hm : ∀ m, i ≠ .lmux m) (hst : ∀ da, i ≠ .store da) {s : State}
    (hb : s.busy = true) (h : ready i s) : (run (body i) s).fault = s.fault ∧ (run (body i) s).err = s.err := by
  cases i with
  | start => exact Signals.start.keepsFault hb h
  | stop => exact Signals.stop.keepsFault hb h
  | send v n a w =>
    cases w
    · exact (Signals.sendNoAck v n a).keepsFault hb h
    · exact (Signals.sendAck v n a).keepsFault hb h
  | rack a => exact (Signals.rack a).keepsFault hb h
  | store da => exact absurd rfl (hst da)
  | ldir l d => simp [body, ldirBody, run_checkedGpio hb h, run_cons, doStmt]
  | lwr l v => simp [body, lwrBody, run_checkedGpio hb h, run_cons, doStmt]
  | lrd l => simp [body, lrdBody, run_checkedGpio hb h, run_cons, doStmt]
  | lmux m => exact absurd rfl (hm m)
  | waitu c => simp [body, waituBody, run_cons, doStmt]
  | waitm c => simp [body, waitmBody, run_cons, doStmt]

/-- Settles O29: a signal or line command raises nothing once its check has passed, LMUX and STORE only what a failed
switch raises. -/
theorem readyCommandsRaiseOnlyPinReconf : Obligations.ReadyCommandsRaiseOnlyPinReconf := by
  unfold Obligations.ReadyCommandsRaiseOnlyPinReconf
  intro i s t hr hf h
  rw [exec_eq_run] at h
  cases h
  by_cases hi : (∃ m, i = .lmux m) ∨ ∃ da, i = .store da
  · have hraises : RaisesOnlyPinReconf (s.begin []) (run (body i) (s.begin [])) := by
      obtain ⟨m, rfl⟩ | ⟨da, rfl⟩ := hi
      · simpa [body, lmuxBody, run_cons, doStmt] using muxOrFault_raises m (s.begin [])
      · exact run_store_raises da rfl
    obtain ⟨hfault, herr⟩ | ⟨hfault, herr, hcan⟩ := hraises
    · exact .inl ⟨hfault.trans hf, herr⟩
    · exact .inr ⟨hfault, by simpa [hf] using herr, hcan, hi⟩
  · have hready : ready i (s.begin []) := by cases i <;> exact hr
    have hm : ∀ m, i ≠ .lmux m := fun m h => hi (.inl ⟨m, h⟩)
    have hst : ∀ da, i ≠ .store da := fun da h => hi (.inr ⟨da, h⟩)
    obtain ⟨hfault, herr⟩ := run_ready_keepsFault hm hst rfl hready
    exact .inl ⟨hfault.trans hf, herr⟩

end Sys2Proof.Machine
end

section
/-!
SUPPORT. What a step does with the host's next event (20_memory.md), as equations: an event that is due comes to pass
(R55, R57 to R59), a write to CMD waits while BUSY = 1 (R56); and what a host read returns, register by register (R51).
-/

namespace Sys2Proof.Machine

/-! ## The host's next event -/

section
variable {s : State} {op : HostOp} {k : Nat} {rest : List HostEvent}

/-- The host's next event comes to pass when the block is idle, or when it is due and BUSY does not hold it. -/
theorem step_hostEvent (hh : s.host = ⟨op, k⟩ :: rest) (hdue : s.busy = false ∨ (k = 0 ∧ op.heldByBusy = false)) :
    step s = hostOp op { s with host := rest } := by
  have hm : sequencerMoves s = false := by
    obtain hb | ⟨hk, hop⟩ := hdue
    · simp [sequencerMoves, hb]
    · simp [sequencerMoves, hh, hk, hop]
  simp [step, stepOnce, hm, hh]

/-- While BUSY = 1 a write to CMD stays the host's next event, and the sequencer moves (R56). -/
theorem step_heldEvent (hh : s.host = ⟨op, k⟩ :: rest) (hb : s.busy = true) (hop : op.heldByBusy = true) :
    step s = .next (tick { s with host := ⟨op, k - 1⟩ :: rest }) := by
  have hm : sequencerMoves s = true := by simp [sequencerMoves, hb, hh, hop]
  have hcount : s.countDown = { s with host := ⟨op, k - 1⟩ :: rest } := by simp only [State.countDown, hh]
  simp [step, stepOnce, hm, hcount]

/-- A write to a register other than CMD, due, is used up without effect (R59). -/
theorem step_ignoredWrite {off : Nat} {w : Word} (hop : op = .write off w ∨ op = .post off w) (hoff : off ≠ 0)
    (hh : s.host = ⟨op, k⟩ :: rest) (hdue : s.busy = false ∨ k = 0) : step s = .next { s with host := rest } := by
  have hheld : op.heldByBusy = false := by
    rcases hop with rfl | rfl <;> simpa [HostOp.heldByBusy] using hoff
  rw [step_hostEvent hh (hdue.imp_right (⟨·, hheld⟩))]
  rcases hop with rfl | rfl <;> simp [hostOp, hoff]

end

/-! ## Writes to CMD -/

theorem hostWriteCmd_legal {w : Word} {i : Instr} {s : State} (hf : s.fault = false) (hd : decode w = .ok i) :
    hostWriteCmd w s = exec i (s.accept w) := by
  simp [hostWriteCmd, hf, hd]

theorem hostPostCmd_legal {w : Word} {i : Instr} {s : State} (hf : s.fault = false) (hd : decode w = .ok i) :
    hostPostCmd w s = (s.accept w).begin (body i) := by
  simp [hostPostCmd, hf, hd]

/-- An idle block without a fault runs the command whose word comes next (R55, R73). -/
theorem step_legalWrite {s : State} {w : Word} {k : Nat} {rest : List HostEvent} {i : Instr}
    (hh : s.host = ⟨.write 0 w, k⟩ :: rest) (hb : s.busy = false) (hf : s.fault = false) (hd : decode w = .ok i) :
    step s = exec i (({ s with host := rest } : State).accept w) := by
  rw [step_hostEvent hh (.inl hb)]
  exact hostWriteCmd_legal hf hd

theorem State.withFetchWord_toNat (s : State) (w : Word) : s.withFetchWord 16 w.toNat = s.withHostWrite w := by
  have hw : BitVec.ofNat 16 (w.toNat % 2 ^ 16) = w := by
    rw [Nat.mod_eq_of_lt w.isLt, BitVec.ofNat_toNat, BitVec.setWidth_eq]
  rw [State.withFetchWord, hw]

/-- Settles O7: the write is taken and its command run, and a fetched word is such a write to an idle block. -/
theorem stepRunsWrittenCommand : Obligations.StepRunsWrittenCommand := by
  unfold Obligations.StepRunsWrittenCommand
  refine ⟨fun s w k rest i hh hb hf hd => step_legalWrite hh hb hf hd, fun s w i hd => ?_⟩
  rw [State.withFetchWord_toNat]
  exact step_legalWrite (s := s.withHostWrite w) rfl rfl rfl hd

/-- Settles O10: a held write lets the sequencer move, whose step writes neither the agenda nor LASTCMD. -/
theorem commandHeldWhileBusy : Obligations.CommandHeldWhileBusy := by
  unfold Obligations.CommandHeldWhileBusy
  intro s w k rest
  refine ⟨fun op hop hh hb => ?_, fun hh hb => step_hostEvent hh (.inl hb), fun hh hb => step_hostEvent hh (.inl hb)⟩
  have hheld : op.heldByBusy = true := by rcases hop with rfl | rfl <;> rfl
  have hstep := step_heldEvent hh hb hheld
  exact ⟨hstep, _, hstep, by simp, by simp⟩

/-- Settles O11: such a write is accepted, and its command begun. -/
theorem postedCommandIsAccepted : Obligations.PostedCommandIsAccepted := by
  unfold Obligations.PostedCommandIsAccepted
  intro s w k rest i hh hb hf hd
  have hpost : hostPostCmd w { s with host := rest } = (({ s with host := rest } : State).accept w).begin (body i) :=
    hostPostCmd_legal hf hd
  rw [step_hostEvent hh (.inl hb)]
  exact congrArg Host.Outcome.next hpost

/-- Settles O18: the access comes to pass when it is due, whether or not a command runs, and the port refuses it. -/
theorem partialAccessIsRefused : Obligations.PartialAccessIsRefused := by
  unfold Obligations.PartialAccessIsRefused
  intro s k rest hh hdue
  exact step_hostEvent hh (hdue.imp_right (⟨·, rfl⟩))

/-! ## What a host read returns -/

theorem State.readRegister_status_busy {s : State} (hb : s.busy = true) : ∃ res timedOut mux,
    s.readRegister 1 = s.statusWith res timedOut mux :=
  ⟨_, _, _, if_pos hb⟩

theorem State.readRegister_status_idle {s : State} (hb : s.busy = false) : s.readRegister 1 = s.statusWord := by
  simp [State.readRegister, hb]

theorem State.readRegister_lines_idle {s : State} (hb : s.busy = false) : s.readRegister 2 = s.linesWord := by
  simp [State.readRegister, hb]

theorem State.readRegister_lastCmd (s : State) : s.readRegister 3 = s.lastCmd := rfl

theorem State.readRegister_other (s : State) {off : Nat} (hoff : off = 0 ∨ 3 < off) :
    s.readRegister off = 0x0000#16 := by
  unfold State.readRegister
  split
  · omega
  · omega
  · omega
  · rfl

/-- Every field of LINES, by its place (R54). -/
theorem State.linesWord_fields (s : State) :
    s.linesWord.getLsbD 0 = s.scl.lat ∧ s.linesWord.getLsbD 1 = Dir.outBit s.scl.dir ∧
      s.linesWord.getLsbD 2 = s.sda.lat ∧ s.linesWord.getLsbD 3 = Dir.outBit s.sda.dir ∧
      s.linesWord.extractLsb' 4 12 = 0#12 := by
  unfold State.linesWord
  generalize s.scl.lat = sclLat
  generalize s.sda.lat = sdaLat
  generalize Dir.outBit s.scl.dir = sclOut
  generalize Dir.outBit s.sda.dir = sdaOut
  revert sclLat sdaLat sclOut sdaOut
  decide

@[simp] theorem Dir.outBit_eq_true (d : Dir) : Dir.outBit d = true ↔ d = .output := by
  cases d <;> decide

/-- A host read returns the register's value; of the rest it can only use up one of the environment's draws, and that
only while BUSY = 1 (R57). -/
theorem hostOp_read (off : Nat) (s : State) : ∃ e, (s.busy = false → e = s.env) ∧
    hostOp (.read off) s = .next { s with readData := some (s.readRegister off), env := e } := by
  cases hb : s.busy
  · exact ⟨s.env, fun _ => rfl, by simp [hostOp, hostRead, hb]⟩
  · exact ⟨s.takeValue.env, by simp, by simp [hostOp, hostRead, hb, State.takeValue]⟩

/-! ## Steps that read -/

section
variable {s : State} {off k : Nat} {rest : List HostEvent}

/-- A read that is due returns the register's value; of the rest it can only use up one of the environment's draws, and
that only while BUSY = 1 (R57). -/
theorem step_read (hh : s.host = ⟨.read off, k⟩ :: rest) (hdue : s.busy = false ∨ k = 0) :
    ∃ e, (s.busy = false → e = s.env) ∧
      step s = .next { s with host := rest, readData := some (s.readRegister off), env := e } := by
  rw [step_hostEvent hh (hdue.imp_right (⟨·, rfl⟩))]
  exact hostOp_read off { s with host := rest }

theorem step_read_idle (hh : s.host = ⟨.read off, k⟩ :: rest) (hb : s.busy = false) :
    step s = .next { s with host := rest, readData := some (s.readRegister off) } := by
  obtain ⟨e, he, hstep⟩ := step_read hh (.inl hb)
  rw [hstep, he hb]

end

theorem step_read_reset (off k : Nat) (rest : List HostEvent) :
    step { State.reset with host := ⟨.read off, k⟩ :: rest } =
      .next { State.reset with host := rest, readData := some (State.reset.readRegister off) } :=
  step_read_idle (s := { State.reset with host := ⟨.read off, k⟩ :: rest }) rfl rfl

/-- Settles O14: a read returns the status word, whose fields stand at their places, and a write there is ignored. -/
theorem statusReadShowsTheFields : Obligations.StatusReadShowsTheFields := by
  unfold Obligations.StatusReadShowsTheFields
  refine ⟨fun s k rest hh hb => ?_, fun s k w rest op hop => step_ignoredWrite hop (by decide),
    step_read_reset 1⟩
  obtain ⟨hres, hto, hbusy, hfault, herr, hmux, hzero⟩ :=
    s.statusWith_fields s.res s.timedOut (Mux.statusBit s.mux)
  refine ⟨s.statusWord, ?_, hres, hto, hbusy, hfault, herr.trans ?_, hmux.trans ?_, hzero⟩
  · rw [step_read_idle hh hb, State.readRegister_status_idle hb]
  · cases s.err <;> rfl
  · cases s.mux <;> rfl

/-- Settles O15: a read returns the lines' word, whose fields stand at their places. -/
theorem linesReadShowsTheLines : Obligations.LinesReadShowsTheLines := by
  unfold Obligations.LinesReadShowsTheLines
  refine ⟨fun s k rest hh hb => ?_, step_read_reset 2⟩
  obtain ⟨hsclLat, hsclOut, hsdaLat, hsdaOut, hzero⟩ := s.linesWord_fields
  refine ⟨s.linesWord, ?_, hsclLat, ?_, hsdaLat, ?_, hzero⟩
  · rw [step_read_idle hh hb, State.readRegister_lines_idle hb]
  · rw [hsclOut, Dir.outBit_eq_true]
  · rw [hsdaOut, Dir.outBit_eq_true]

/-- Settles O16: while BUSY = 1, RES, TO and MUX of STATUS are draws, every other field stands. -/
theorem readsWhileBusy : Obligations.ReadsWhileBusy := by
  unfold Obligations.ReadsWhileBusy
  intro s off rest hh hb
  obtain ⟨e, _, hstep⟩ := step_read hh (.inr rfl)
  refine ⟨s.readRegister off, e, hstep, ?_, ?_, s.readRegister_other⟩
  · rintro rfl
    obtain ⟨res, timedOut, mux, hread⟩ := State.readRegister_status_busy hb
    obtain ⟨_, _, hbusy, hfault, herr, _, hzero⟩ := s.statusWith_fields res timedOut mux
    rw [hread]
    exact ⟨hbusy.trans hb, hfault, herr, hzero⟩
  · rintro rfl
    exact s.readRegister_lastCmd

/-- Settles O17: only offset 0 takes a write, and only offsets 1 to 3 answer a read with a value of the block. -/
theorem otherRegistersIgnoreWritesAndReadZero : Obligations.OtherRegistersIgnoreWritesAndReadZero := by
  unfold Obligations.OtherRegistersIgnoreWritesAndReadZero
  intro s off k w rest hdue
  refine ⟨fun op hop hoff hh => step_ignoredWrite hop hoff hh hdue, fun hoff hh => ?_⟩
  obtain ⟨e, he, hstep⟩ := step_read hh hdue
  exact ⟨e, he, s.readRegister_other hoff ▸ hstep⟩

end Sys2Proof.Machine
end

section
/-!
SUPPORT. The fields of a command word (R71): when a word is the word of a command, and what the decoder reads from a word
of each operation code (R73); with them, that decode and encode agree.
-/

namespace Sys2Proof.Machine

/-! ## Neighbouring fields -/

theorem append_inj_iff {n m : Nat} (x x' : BitVec n) (y y' : BitVec m) :
    x ++ y = x' ++ y' ↔ x = x' ∧ y = y' := by
  constructor
  · intro h
    have hx := congrArg (BitVec.extractLsb' m n) h
    have hy := congrArg (BitVec.extractLsb' 0 m) h
    simp only [BitVec.extractLsb'_append_eq_left, BitVec.extractLsb'_append_eq_right] at hx hy
    exact ⟨hx, hy⟩
  · rintro ⟨rfl, rfl⟩
    rfl

/-- Two neighbouring fields of a word, taken as one, are `x ++ y` exactly when the upper is `x` and the lower is `y`. -/
theorem append_eq_extractLsb'_iff {k n m p : Nat} (w : BitVec k) (x : BitVec n) (y : BitVec m) :
    x ++ y = w.extractLsb' p (n + m) ↔ x = w.extractLsb' (p + m) n ∧ y = w.extractLsb' p m := by
  rw [← BitVec.extractLsb'_append_extractLsb'_eq_extractLsb' rfl, append_inj_iff]

theorem append_eq_iff {n m : Nat} (w : BitVec (n + m)) (x : BitVec n) (y : BitVec m) :
    x ++ y = w ↔ x = w.extractLsb' m n ∧ y = w.extractLsb' 0 m := by
  simpa using append_eq_extractLsb'_iff (p := 0) w x y

theorem ofBool_eq_extractLsb'_iff (w : Word) (p : Nat) (b : Bool) :
    BitVec.ofBool b = w.extractLsb' p 1 ↔ w.getLsbD p = b := by
  rw [BitVec.getLsbD_eq_extractLsb']
  generalize BitVec.extractLsb' p 1 w = x
  revert x b
  decide

/-! ## The encoder, field by field -/

section
variable (w : Word)

/-- START and STOP, which have no operand (R74, R75). -/
theorem bareWord_eq_iff (op : BitVec 3) : op ++ 0#13 = w ↔ w.extractLsb' 13 3 = op ∧ w.extractLsb' 0 13 = 0#13 := by
  rw [append_eq_iff]
  simp only [eq_comm]

/-- The LINE group's words (R79). -/
theorem lineWord_eq_iff (sub : BitVec 2) (l x : Bool) :
    0b110#3 ++ sub ++ BitVec.ofBool l ++ BitVec.ofBool x ++ 0#9 = w ↔
      w.extractLsb' 13 3 = 0b110#3 ∧ w.extractLsb' 11 2 = sub ∧ w.getLsbD 10 = l ∧ w.getLsbD 9 = x ∧
        w.extractLsb' 0 9 = 0#9 := by
  rw [append_eq_iff, append_eq_extractLsb'_iff, append_eq_extractLsb'_iff, append_eq_extractLsb'_iff,
    ofBool_eq_extractLsb'_iff, ofBool_eq_extractLsb'_iff]
  simp only [and_assoc, eq_comm]

/-- The WAIT group's words (R80). -/
theorem waitWord_eq_iff (u : Bool) (c : BitVec 12) :
    0b111#3 ++ BitVec.ofBool u ++ c = w ↔
      w.extractLsb' 13 3 = 0b111#3 ∧ w.getLsbD 12 = u ∧ w.extractLsb' 0 12 = c := by
  rw [append_eq_iff, append_eq_extractLsb'_iff, ofBool_eq_extractLsb'_iff]
  simp only [and_assoc, eq_comm]

end

/-- The word `w` has the fields of the command, and 0 in its reserved bits (R71, R82). -/
def hasFields (w : Word) : Instr → Prop
  | .start => w.extractLsb' 13 3 = 0b001#3 ∧ w.extractLsb' 0 13 = 0#13
  | .stop => w.extractLsb' 13 3 = 0b010#3 ∧ w.extractLsb' 0 13 = 0#13
  | .send v n a b => w.extractLsb' 13 3 = 0b011#3 ∧ w.getLsbD 12 = b ∧ w.getLsbD 11 = a ∧
      w.extractLsb' 8 3 = BitVec.ofNat 3 (n - 1) ∧ w.extractLsb' 0 8 = v
  | .rack a => w.extractLsb' 13 3 = 0b100#3 ∧ w.getLsbD 12 = false ∧ w.getLsbD 11 = a ∧ w.extractLsb' 0 11 = 0#11
  | .store da => w.extractLsb' 13 3 = 0b101#3 ∧ w.extractLsb' 7 6 = 0#6 ∧ w.extractLsb' 0 7 = da
  | .ldir l d => w.extractLsb' 13 3 = 0b110#3 ∧ w.extractLsb' 11 2 = 0b00#2 ∧ w.getLsbD 10 = l.bit ∧
      w.getLsbD 9 = d.bit ∧ w.extractLsb' 0 9 = 0#9
  | .lwr l v => w.extractLsb' 13 3 = 0b110#3 ∧ w.extractLsb' 11 2 = 0b01#2 ∧ w.getLsbD 10 = l.bit ∧
      w.getLsbD 9 = v ∧ w.extractLsb' 0 9 = 0#9
  | .lrd l => w.extractLsb' 13 3 = 0b110#3 ∧ w.extractLsb' 11 2 = 0b10#2 ∧ w.getLsbD 10 = l.bit ∧
      w.getLsbD 9 = false ∧ w.extractLsb' 0 9 = 0#9
  | .lmux m => w.extractLsb' 13 3 = 0b110#3 ∧ w.extractLsb' 11 2 = 0b11#2 ∧ w.getLsbD 10 = false ∧
      w.getLsbD 9 = m.bit ∧ w.extractLsb' 0 9 = 0#9
  | .waitu c => w.extractLsb' 13 3 = 0b111#3 ∧ w.getLsbD 12 = false ∧ w.extractLsb' 0 12 = c
  | .waitm c => w.extractLsb' 13 3 = 0b111#3 ∧ w.getLsbD 12 = true ∧ w.extractLsb' 0 12 = c

/-- The one word with a command's fields is its encoding (R81). -/
theorem encode_eq_iff (i : Instr) (w : Word) : encode i = w ↔ hasFields w i := by
  cases i with
  | start => exact bareWord_eq_iff w 0b001#3
  | stop => exact bareWord_eq_iff w 0b010#3
  | send v n a b =>
    rw [encode, append_eq_iff, append_eq_extractLsb'_iff, append_eq_extractLsb'_iff, append_eq_extractLsb'_iff,
      ofBool_eq_extractLsb'_iff, ofBool_eq_extractLsb'_iff]
    simp only [hasFields, and_assoc, eq_comm]
  | rack a =>
    change 0b100#3 ++ BitVec.ofBool false ++ BitVec.ofBool a ++ 0#11 = w ↔ _
    rw [append_eq_iff, append_eq_extractLsb'_iff, append_eq_extractLsb'_iff, ofBool_eq_extractLsb'_iff,
      ofBool_eq_extractLsb'_iff]
    simp only [hasFields, and_assoc, eq_comm]
  | store da =>
    rw [encode, append_eq_iff, append_eq_extractLsb'_iff]
    simp only [hasFields, and_assoc, eq_comm]
  | ldir l d => exact lineWord_eq_iff w 0b00#2 l.bit d.bit
  | lwr l v => exact lineWord_eq_iff w 0b01#2 l.bit v
  | lrd l => exact lineWord_eq_iff w 0b10#2 l.bit false
  | lmux m => exact lineWord_eq_iff w 0b11#2 false m.bit
  | waitu c => exact waitWord_eq_iff w false c
  | waitm c => exact waitWord_eq_iff w true c

/-! ## The decoder, by operation code -/

theorem opcode_cases (w : Word) :
    w.extractLsb' 13 3 = 0b000#3 ∨ w.extractLsb' 13 3 = 0b001#3 ∨ w.extractLsb' 13 3 = 0b010#3 ∨
      w.extractLsb' 13 3 = 0b011#3 ∨ w.extractLsb' 13 3 = 0b100#3 ∨ w.extractLsb' 13 3 = 0b101#3 ∨
      w.extractLsb' 13 3 = 0b110#3 ∨ w.extractLsb' 13 3 = 0b111#3 := by
  generalize w.extractLsb' 13 3 = op
  revert op
  decide

theorem lineOperation_cases (w : Word) :
    w.extractLsb' 11 2 = 0b00#2 ∨ w.extractLsb' 11 2 = 0b01#2 ∨ w.extractLsb' 11 2 = 0b10#2 ∨
      w.extractLsb' 11 2 = 0b11#2 := by
  generalize w.extractLsb' 11 2 = sub
  revert sub
  decide

theorem opcode_bits (w : Word) : w.getLsbD 15 = (w.extractLsb' 13 3).getLsbD 2 ∧
    w.getLsbD 14 = (w.extractLsb' 13 3).getLsbD 1 ∧ w.getLsbD 13 = (w.extractLsb' 13 3).getLsbD 0 := by
  simp

theorem lineOperation_bits (w : Word) : w.getLsbD 12 = (w.extractLsb' 11 2).getLsbD 1 ∧
    w.getLsbD 11 = (w.extractLsb' 11 2).getLsbD 0 := by
  simp

section
variable {w : Word}

theorem decode_opReserved (h : w.extractLsb' 13 3 = 0b000#3) : decode w = .error .opReserved := by
  simp only [decode, opcode_bits, h]
  rfl

theorem decode_start (h : w.extractLsb' 13 3 = 0b001#3) :
    decode w = if w.extractLsb' 0 13 = 0#13 then .ok .start else .error .startReserved := by
  simp only [decode, opcode_bits, h]
  rfl

theorem decode_stop (h : w.extractLsb' 13 3 = 0b010#3) :
    decode w = if w.extractLsb' 0 13 = 0#13 then .ok .stop else .error .stopReserved := by
  simp only [decode, opcode_bits, h]
  rfl

theorem decode_send (h : w.extractLsb' 13 3 = 0b011#3) : decode w =
    .ok (.send (w.extractLsb' 0 8) ((w.extractLsb' 8 3).toNat + 1) (w.getLsbD 11) (w.getLsbD 12)) := by
  simp only [decode, opcode_bits, h]
  rfl

theorem decode_rack (h : w.extractLsb' 13 3 = 0b100#3) : decode w =
    if w.getLsbD 12 = false ∧ w.extractLsb' 0 11 = 0#11 then .ok (.rack (w.getLsbD 11)) else .error .rackReserved := by
  simp only [decode, opcode_bits, h]
  rfl

theorem decode_store (h : w.extractLsb' 13 3 = 0b101#3) : decode w =
    if w.extractLsb' 7 6 = 0#6 then .ok (.store (w.extractLsb' 0 7)) else .error .storeReserved := by
  simp only [decode, opcode_bits, h]
  rfl

theorem decode_line (h : w.extractLsb' 13 3 = 0b110#3) : decode w = decodeLine w := by
  simp only [decode, opcode_bits, h]
  rfl

theorem decode_wait (h : w.extractLsb' 13 3 = 0b111#3) : decode w =
    if w.getLsbD 12 then .ok (.waitm (w.extractLsb' 0 12)) else .ok (.waitu (w.extractLsb' 0 12)) := by
  simp only [decode, opcode_bits, h]
  rfl

theorem decodeLine_reserved (hz : w.extractLsb' 0 9 ≠ 0#9) : decodeLine w = .error .lineReserved :=
  if_pos hz

theorem decodeLine_ldir (h : w.extractLsb' 11 2 = 0b00#2) (hz : w.extractLsb' 0 9 = 0#9) :
    decodeLine w = .ok (.ldir (Line.ofBit (w.getLsbD 10)) (Dir.ofBit (w.getLsbD 9))) := by
  simp only [decodeLine, lineOperation_bits, h, hz]
  rfl

theorem decodeLine_lwr (h : w.extractLsb' 11 2 = 0b01#2) (hz : w.extractLsb' 0 9 = 0#9) :
    decodeLine w = .ok (.lwr (Line.ofBit (w.getLsbD 10)) (w.getLsbD 9)) := by
  simp only [decodeLine, lineOperation_bits, h, hz]
  rfl

theorem decodeLine_lrd (h : w.extractLsb' 11 2 = 0b10#2) (hz : w.extractLsb' 0 9 = 0#9) : decodeLine w =
    if w.getLsbD 9 then .error .lrdReserved else .ok (.lrd (Line.ofBit (w.getLsbD 10))) := by
  simp only [decodeLine, lineOperation_bits, h, hz]
  rfl

theorem decodeLine_lmux (h : w.extractLsb' 11 2 = 0b11#2) (hz : w.extractLsb' 0 9 = 0#9) : decodeLine w =
    if w.getLsbD 10 then .error .lmuxReserved else .ok (.lmux (Mux.ofBit (w.getLsbD 9))) := by
  simp only [decodeLine, lineOperation_bits, h, hz]
  rfl

end

/-! ## Decode and encode -/

@[simp] theorem Line.ofBit_bit (l : Line) : Line.ofBit l.bit = l := by cases l <;> rfl
@[simp] theorem Line.bit_ofBit (b : Bool) : (Line.ofBit b).bit = b := by cases b <;> rfl
@[simp] theorem Dir.ofBit_bit (d : Dir) : Dir.ofBit d.bit = d := by cases d <;> rfl
@[simp] theorem Dir.bit_ofBit (b : Bool) : (Dir.ofBit b).bit = b := by cases b <;> rfl
@[simp] theorem Mux.ofBit_bit (m : Mux) : Mux.ofBit m.bit = m := by cases m <;> rfl
@[simp] theorem Mux.bit_ofBit (b : Bool) : (Mux.ofBit b).bit = b := by cases b <;> rfl

/-- NM1 holds the bit count minus one (R76). -/
theorem bitCount_of_nm1 {v : Byte} {n : Nat} {a b : Bool} (hn : (Instr.send v n a b).wf = true) :
    (BitVec.ofNat 3 (n - 1)).toNat + 1 = n := by
  simp only [Instr.wf, Bool.and_eq_true, decide_eq_true_eq] at hn
  rw [BitVec.toNat_ofNat]
  omega

theorem decode_of_hasFields {w : Word} {i : Instr} (hwf : i.wf = true) (hi : hasFields w i) : decode w = .ok i := by
  cases i with
  | start =>
    obtain ⟨hop, hz⟩ := hi
    rw [decode_start hop, if_pos hz]
  | stop =>
    obtain ⟨hop, hz⟩ := hi
    rw [decode_stop hop, if_pos hz]
  | send v n a b =>
    obtain ⟨hop, rfl, rfl, hn, rfl⟩ := hi
    rw [decode_send hop, hn, bitCount_of_nm1 hwf]
  | rack a =>
    obtain ⟨hop, hr, rfl, hz⟩ := hi
    rw [decode_rack hop, if_pos ⟨hr, hz⟩]
  | store da =>
    obtain ⟨hop, hz, rfl⟩ := hi
    rw [decode_store hop, if_pos hz]
  | ldir l d =>
    obtain ⟨hop, hsub, hl, hd, hz⟩ := hi
    rw [decode_line hop, decodeLine_ldir hsub hz, hl, hd, Line.ofBit_bit, Dir.ofBit_bit]
  | lwr l v =>
    obtain ⟨hop, hsub, hl, rfl, hz⟩ := hi
    rw [decode_line hop, decodeLine_lwr hsub hz, hl, Line.ofBit_bit]
  | lrd l =>
    obtain ⟨hop, hsub, hl, hr, hz⟩ := hi
    rw [decode_line hop, decodeLine_lrd hsub hz, hl, hr, Line.ofBit_bit]
    rfl
  | lmux m =>
    obtain ⟨hop, hsub, hr, hm, hz⟩ := hi
    rw [decode_line hop, decodeLine_lmux hsub hz, hr, hm, Mux.ofBit_bit]
    rfl
  | waitu c =>
    obtain ⟨hop, hu, rfl⟩ := hi
    rw [decode_wait hop, hu]
    rfl
  | waitm c =>
    obtain ⟨hop, hu, rfl⟩ := hi
    rw [decode_wait hop, hu]
    rfl

/-- Settles O1: a command's word has the command's fields, and the decoder reads these. -/
theorem decodeOfEncodeReturnsCommand : Obligations.DecodeOfEncodeReturnsCommand := by
  unfold Obligations.DecodeOfEncodeReturnsCommand
  exact fun i hwf => decode_of_hasFields hwf ((encode_eq_iff i _).mp rfl)

/-- The bit count that NM1 gives (R76). -/
theorem nm1_of_bitCount (nm1 : BitVec 3) : BitVec.ofNat 3 (nm1.toNat + 1 - 1) = nm1 := by
  simp

theorem hasFields_of_decodeLine {w : Word} {i : Instr} (hop : w.extractLsb' 13 3 = 0b110#3)
    (h : decodeLine w = .ok i) : i.wf = true ∧ hasFields w i := by
  by_cases hz : w.extractLsb' 0 9 = 0#9
  · obtain hsub | hsub | hsub | hsub := lineOperation_cases w
    · rw [decodeLine_ldir hsub hz] at h
      cases h
      exact ⟨rfl, hop, hsub, (Line.bit_ofBit _).symm, (Dir.bit_ofBit _).symm, hz⟩
    · rw [decodeLine_lwr hsub hz] at h
      cases h
      exact ⟨rfl, hop, hsub, (Line.bit_ofBit _).symm, rfl, hz⟩
    · rw [decodeLine_lrd hsub hz] at h
      split at h <;> cases h
      exact ⟨rfl, hop, hsub, (Line.bit_ofBit _).symm, Bool.eq_false_iff.mpr ‹_›, hz⟩
    · rw [decodeLine_lmux hsub hz] at h
      split at h <;> cases h
      exact ⟨rfl, hop, hsub, Bool.eq_false_iff.mpr ‹_›, (Mux.bit_ofBit _).symm, hz⟩
  · rw [decodeLine_reserved hz] at h
    cases h

theorem hasFields_of_decode {w : Word} {i : Instr} (h : decode w = .ok i) : i.wf = true ∧ hasFields w i := by
  obtain hop | hop | hop | hop | hop | hop | hop | hop := opcode_cases w
  · rw [decode_opReserved hop] at h
    cases h
  · rw [decode_start hop] at h
    split at h <;> cases h
    exact ⟨rfl, hop, ‹_›⟩
  · rw [decode_stop hop] at h
    split at h <;> cases h
    exact ⟨rfl, hop, ‹_›⟩
  · rw [decode_send hop] at h
    cases h
    refine ⟨?_, hop, rfl, rfl, (nm1_of_bitCount _).symm, rfl⟩
    simp only [Instr.wf, Bool.and_eq_true, decide_eq_true_eq]
    omega
  · rw [decode_rack hop] at h
    split at h <;> cases h
    next hz => exact ⟨rfl, hop, hz.1, rfl, hz.2⟩
  · rw [decode_store hop] at h
    split at h <;> cases h
    exact ⟨rfl, hop, ‹_›, rfl⟩
  · rw [decode_line hop] at h
    exact hasFields_of_decodeLine hop h
  · rw [decode_wait hop] at h
    split at h <;> cases h
    · exact ⟨rfl, hop, ‹_›, rfl⟩
    · exact ⟨rfl, hop, Bool.eq_false_iff.mpr ‹_›, rfl⟩

/-- Settles O2: the decoder answers a command only for a word that has the command's fields. -/
theorem encodeOfDecodeReturnsWord : Obligations.EncodeOfDecodeReturnsWord := by
  unfold Obligations.EncodeOfDecodeReturnsWord
  intro w i h
  obtain ⟨hwf, hi⟩ := hasFields_of_decode h
  exact ⟨hwf, (encode_eq_iff i w).mpr hi⟩

end Sys2Proof.Machine
end

section
/-!
SUPPORT. The opcode table (R73), row by row, and the ILLEGAL words (R83).
-/

namespace Sys2Proof.Machine

/-! ## Masks -/

/-- A mask of ones above and zeros below compares the upper field. -/
theorem and_upperMask_eq_iff {a b : Nat} (w : BitVec (a + b)) (x : BitVec a) :
    w &&& (BitVec.allOnes a ++ 0#b) = x ++ 0#b ↔ x = w.extractLsb' b a := by
  rw [eq_comm, append_eq_iff, BitVec.extractLsb'_and, BitVec.extractLsb'_and, BitVec.extractLsb'_append_eq_left,
    BitVec.extractLsb'_append_eq_right, BitVec.and_allOnes, BitVec.and_zero, and_iff_left rfl]

/-- A mask of ones with one gap compares the fields above and below the gap. -/
theorem and_gapMask_eq_iff {a b c : Nat} (w : BitVec (a + b + c)) (x : BitVec a) (y : BitVec c) :
    w &&& (BitVec.allOnes a ++ 0#b ++ BitVec.allOnes c) = x ++ 0#b ++ y ↔
      x = w.extractLsb' (c + b) a ∧ y = w.extractLsb' 0 c := by
  have hw : w.extractLsb' (c + b) a ++ w.extractLsb' c b ++ w.extractLsb' 0 c = w := by
    rw [append_eq_iff, append_eq_extractLsb'_iff]
    exact ⟨⟨rfl, rfl⟩, rfl⟩
  conv_lhs => rw [← hw]
  simp only [BitVec.and_append, BitVec.and_allOnes, BitVec.and_zero, append_inj_iff, and_true, eq_comm]

/-! ## The rows of the opcode table -/

section
variable (w : Word)

theorem startRow_iff : w &&& 0xFFFF#16 = 0x2000#16 ↔ w.extractLsb' 13 3 = 0b001#3 ∧ w.extractLsb' 0 13 = 0#13 := by
  rw [show w &&& 0xFFFF#16 = w from BitVec.and_allOnes, eq_comm]
  exact encode_eq_iff .start w

theorem stopRow_iff : w &&& 0xFFFF#16 = 0x4000#16 ↔ w.extractLsb' 13 3 = 0b010#3 ∧ w.extractLsb' 0 13 = 0#13 := by
  rw [show w &&& 0xFFFF#16 = w from BitVec.and_allOnes, eq_comm]
  exact encode_eq_iff .stop w

theorem sendRow_iff : w &&& 0xE000#16 = 0x6000#16 ↔ w.extractLsb' 13 3 = 0b011#3 :=
  (and_upperMask_eq_iff (b := 13) w 0b011#3).trans eq_comm

theorem rackRow_iff : w &&& 0xF7FF#16 = 0x8000#16 ↔
    w.extractLsb' 13 3 = 0b100#3 ∧ w.getLsbD 12 = false ∧ w.extractLsb' 0 11 = 0#11 := by
  refine (and_gapMask_eq_iff (b := 1) w (0b100#3 ++ BitVec.ofBool false) 0#11).trans ?_
  rw [append_eq_extractLsb'_iff, ofBool_eq_extractLsb'_iff]
  simp only [and_assoc, eq_comm]

theorem storeRow_iff : w &&& 0xFF80#16 = 0xA000#16 ↔
    w.extractLsb' 13 3 = 0b101#3 ∧ w.extractLsb' 7 6 = 0#6 := by
  refine (and_upperMask_eq_iff (b := 7) w (0b101#3 ++ 0#6)).trans ?_
  rw [append_eq_extractLsb'_iff]
  simp only [eq_comm]

theorem ldirRow_iff : w &&& 0xF9FF#16 = 0xC000#16 ↔
    w.extractLsb' 13 3 = 0b110#3 ∧ w.extractLsb' 11 2 = 0b00#2 ∧ w.extractLsb' 0 9 = 0#9 := by
  refine (and_gapMask_eq_iff (b := 2) w (0b110#3 ++ 0b00#2) 0#9).trans ?_
  rw [append_eq_extractLsb'_iff]
  simp only [and_assoc, eq_comm]

theorem lwrRow_iff : w &&& 0xF9FF#16 = 0xC800#16 ↔
    w.extractLsb' 13 3 = 0b110#3 ∧ w.extractLsb' 11 2 = 0b01#2 ∧ w.extractLsb' 0 9 = 0#9 := by
  refine (and_gapMask_eq_iff (b := 2) w (0b110#3 ++ 0b01#2) 0#9).trans ?_
  rw [append_eq_extractLsb'_iff]
  simp only [and_assoc, eq_comm]

theorem lrdRow_iff : w &&& 0xFBFF#16 = 0xD000#16 ↔
    w.extractLsb' 13 3 = 0b110#3 ∧ w.extractLsb' 11 2 = 0b10#2 ∧ w.getLsbD 9 = false ∧
      w.extractLsb' 0 9 = 0#9 := by
  refine (and_gapMask_eq_iff (b := 1) w (0b110#3 ++ 0b10#2) (BitVec.ofBool false ++ 0#9)).trans ?_
  rw [append_eq_extractLsb'_iff, append_eq_extractLsb'_iff, ofBool_eq_extractLsb'_iff]
  simp only [and_assoc, eq_comm]

theorem lmuxRow_iff : w &&& 0xFDFF#16 = 0xD800#16 ↔
    w.extractLsb' 13 3 = 0b110#3 ∧ w.extractLsb' 11 2 = 0b11#2 ∧ w.getLsbD 10 = false ∧
      w.extractLsb' 0 9 = 0#9 := by
  refine (and_gapMask_eq_iff (b := 1) w (0b110#3 ++ 0b11#2 ++ BitVec.ofBool false) 0#9).trans ?_
  rw [append_eq_extractLsb'_iff, append_eq_extractLsb'_iff, ofBool_eq_extractLsb'_iff]
  simp only [and_assoc, eq_comm]

theorem waituRow_iff : w &&& 0xF000#16 = 0xE000#16 ↔ w.extractLsb' 13 3 = 0b111#3 ∧ w.getLsbD 12 = false := by
  refine (and_upperMask_eq_iff (b := 12) w (0b111#3 ++ BitVec.ofBool false)).trans ?_
  rw [append_eq_extractLsb'_iff, ofBool_eq_extractLsb'_iff]
  simp only [eq_comm]

theorem waitmRow_iff : w &&& 0xF000#16 = 0xF000#16 ↔ w.extractLsb' 13 3 = 0b111#3 ∧ w.getLsbD 12 = true := by
  refine (and_upperMask_eq_iff (b := 12) w (0b111#3 ++ BitVec.ofBool true)).trans ?_
  rw [append_eq_extractLsb'_iff, ofBool_eq_extractLsb'_iff]
  simp only [eq_comm]

end

/-- Settles O3: for each operation code, a row matches exactly when the decoder's test of the reserved bits passes. -/
theorem decodeAgreesWithOpcodeTable : Obligations.DecodeAgreesWithOpcodeTable := by
  unfold Obligations.DecodeAgreesWithOpcodeTable
  intro w
  simp only [tableRows, opcodeTable, List.filter_cons, List.filter_nil, beq_iff_eq, startRow_iff, stopRow_iff,
    sendRow_iff, rackRow_iff, storeRow_iff, ldirRow_iff, lwrRow_iff, lrdRow_iff, lmuxRow_iff, waituRow_iff,
    waitmRow_iff]
  obtain hop | hop | hop | hop | hop | hop | hop | hop := opcode_cases w
  · simp [decode_opReserved hop, hop]
  · simp only [decode_start hop, hop]
    by_cases hz : w.extractLsb' 0 13 = 0#13 <;> simp [hz, Instr.mnemonic]
  · simp only [decode_stop hop, hop]
    by_cases hz : w.extractLsb' 0 13 = 0#13 <;> simp [hz, Instr.mnemonic]
  · simp [decode_send hop, hop, Instr.mnemonic]
  · simp only [decode_rack hop, hop]
    by_cases hz : w.getLsbD 12 = false ∧ w.extractLsb' 0 11 = 0#11 <;>
      simp [hz, Instr.mnemonic, -BitVec.getLsbD_eq_getElem]
  · simp only [decode_store hop, hop]
    by_cases hz : w.extractLsb' 7 6 = 0#6 <;> simp [hz, Instr.mnemonic]
  · simp only [decode_line hop, hop]
    by_cases hz : w.extractLsb' 0 9 = 0#9
    · obtain hsub | hsub | hsub | hsub := lineOperation_cases w
      · simp [decodeLine_ldir hsub hz, hsub, hz, Instr.mnemonic]
      · simp [decodeLine_lwr hsub hz, hsub, hz, Instr.mnemonic]
      · cases hx : w.getLsbD 9 <;>
          simp [decodeLine_lrd hsub hz, hsub, hz, hx, Instr.mnemonic, -BitVec.getLsbD_eq_getElem]
      · cases hl : w.getLsbD 10 <;>
          simp [decodeLine_lmux hsub hz, hsub, hz, hl, Instr.mnemonic, -BitVec.getLsbD_eq_getElem]
    · simp [decodeLine_reserved hz, hz]
  · cases hu : w.getLsbD 12 <;> simp [decode_wait hop, hop, hu, Instr.mnemonic, -BitVec.getLsbD_eq_getElem]

/-! ## ILLEGAL words -/

/-- R83's list: for each operation code, the decoder's test of the reserved bits fails. -/
theorem decode_isError_iff (w : Word) : (∃ e, decode w = .error e) ↔
    (w.extractLsb' 13 3 = 0b000#3 ∨
      (w.extractLsb' 13 3 = 0b001#3 ∨ w.extractLsb' 13 3 = 0b010#3) ∧ w.extractLsb' 0 13 ≠ 0#13 ∨
      w.extractLsb' 13 3 = 0b100#3 ∧ (w.extractLsb' 12 1 = 1#1 ∨ w.extractLsb' 0 11 ≠ 0#11) ∨
      w.extractLsb' 13 3 = 0b101#3 ∧ w.extractLsb' 7 6 ≠ 0#6 ∨
      w.extractLsb' 13 3 = 0b110#3 ∧ (w.extractLsb' 0 9 ≠ 0#9 ∨
        w.extractLsb' 11 2 = 0b10#2 ∧ w.extractLsb' 9 1 = 1#1 ∨
        w.extractLsb' 11 2 = 0b11#2 ∧ w.extractLsb' 10 1 = 1#1)) := by
  have hbit (p : Nat) : w.extractLsb' p 1 = 1#1 ↔ w.getLsbD p = true :=
    eq_comm.trans (ofBool_eq_extractLsb'_iff w p true)
  simp only [hbit]
  obtain hop | hop | hop | hop | hop | hop | hop | hop := opcode_cases w
  · simp [decode_opReserved hop, hop]
  · by_cases hz : w.extractLsb' 0 13 = 0#13 <;> simp [decode_start hop, hop, hz]
  · by_cases hz : w.extractLsb' 0 13 = 0#13 <;> simp [decode_stop hop, hop, hz]
  · simp [decode_send hop, hop]
  · by_cases hz : w.extractLsb' 0 11 = 0#11 <;> cases hr : w.getLsbD 12 <;>
      simp [decode_rack hop, hop, hz, hr, -BitVec.getLsbD_eq_getElem]
  · by_cases hz : w.extractLsb' 7 6 = 0#6 <;> simp [decode_store hop, hop, hz]
  · by_cases hz : w.extractLsb' 0 9 = 0#9
    · obtain hsub | hsub | hsub | hsub := lineOperation_cases w
      · simp [decode_line hop, decodeLine_ldir hsub hz, hop, hsub, hz]
      · simp [decode_line hop, decodeLine_lwr hsub hz, hop, hsub, hz]
      · cases hx : w.getLsbD 9 <;>
          simp [decode_line hop, decodeLine_lrd hsub hz, hop, hsub, hz, hx, -BitVec.getLsbD_eq_getElem]
      · cases hl : w.getLsbD 10 <;>
          simp [decode_line hop, decodeLine_lmux hsub hz, hop, hsub, hz, hl, -BitVec.getLsbD_eq_getElem]
    · simp [decode_line hop, decodeLine_reserved hz, hop, hz]
  · cases hu : w.getLsbD 12 <;> simp [decode_wait hop, hop, hu, -BitVec.getLsbD_eq_getElem]

/-- An ILLEGAL word written to an idle block without a fault (R55, R83, R202). -/
theorem step_illegalWrite {s : State} {w : Word} {k : Nat} {rest : List HostEvent} {op : HostOp} {e : Illegal}
    (hop : op = .write 0 w ∨ op = .post 0 w) (hh : s.host = ⟨op, k⟩ :: rest) (hb : s.busy = false)
    (hf : s.fault = false) (hd : decode w = .error e) :
    step s = .next ((({ s with host := rest } : State).accept w).raise .illegalCmd) := by
  rw [step_hostEvent hh (.inl hb)]
  rcases hop with rfl | rfl <;> simp [hostOp, hostWriteCmd, hostPostCmd, hf, hd]

/-- Settles O4: the words by operation code, and the write by the host's two ways to make it. -/
theorem illegalWordsAreTheReservedOnes : Obligations.IllegalWordsAreTheReservedOnes := by
  unfold Obligations.IllegalWordsAreTheReservedOnes
  refine ⟨decode_isError_iff, ⟨.opReserved, decode_opReserved (by decide)⟩, ?_⟩
  intro s w k rest op hop hh hb hf ⟨e, hd⟩
  rw [step_illegalWrite hop hh hb hf hd]
  simp [State.accept, State.raise, hb, hf]

end Sys2Proof.Machine
end

section
/-!
SUPPORT. The commands' words as sums of their fields (R74 to R80).
-/

namespace Sys2Proof.Machine

/-- Neighbouring fields as a sum. -/
theorem append_eq_or {n m k : Nat} (h : n + m = k) (x : BitVec n) (y : BitVec m) :
    BitVec.cast h (x ++ y) = x.setWidth k <<< m ||| y.setWidth k := by
  subst h
  exact (BitVec.setWidth_eq _).symm.trans BitVec.setWidth_append_eq_shiftLeft_setWidth_or

theorem encode_send (v : Byte) (n : Nat) (a w : Bool) (hpos : 1 ≤ n) (hle : n ≤ 8) : encode (.send v n a w) =
    0x6000#16 ||| bitAt w 12 ||| bitAt a 11 ||| BitVec.ofNat 16 (n - 1) <<< 8 ||| v.zeroExtend 16 := by
  have hhead : (0b011#3 ++ BitVec.ofBool w ++ BitVec.ofBool a ++ BitVec.ofNat 3 (n - 1)).setWidth 16 <<< 8 =
      0x6000#16 ||| bitAt w 12 ||| bitAt a 11 ||| BitVec.ofNat 16 (n - 1) <<< 8 := by
    interval_cases n <;> cases a <;> cases w <;> rfl
  rw [← hhead]
  exact append_eq_or rfl (0b011#3 ++ BitVec.ofBool w ++ BitVec.ofBool a ++ BitVec.ofNat 3 (n - 1)) v

/-- Settles O5: an operand of many values stands at the low end of its word, after a constant or, for SEND, after three
fields of 32 values in all; every other operand has two values. -/
theorem encodingsAreTheWordsOfTheSpec : Obligations.EncodingsAreTheWordsOfTheSpec := by
  unfold Obligations.EncodingsAreTheWordsOfTheSpec
  refine ⟨rfl, rfl, encode_send, by decide, append_eq_or rfl (0b101#3 ++ 0#6), ?_, by decide, rfl, rfl, rfl, rfl,
    fun c => ⟨append_eq_or rfl (0b111#3 ++ 0#1) c, append_eq_or rfl (0b111#3 ++ 1#1) c⟩⟩
  intro d
  cases d <;> decide

/-- Settles O6: the decoder runs on each of the words. -/
theorem writtenWordsDecode : Obligations.WrittenWordsDecode := by
  unfold Obligations.WrittenWordsDecode
  decide

end Sys2Proof.Machine
end

section
/-!
SUPPORT. The assembler (30_encoding.md, section 6): the pseudo-instructions (R93), the commands that the assembler reads,
and the operands that it refuses (R91).
-/

namespace Sys2Proof.Machine

/-! ## Pseudo-instructions -/

/-- `SENDB` and `SENDK` mask a value of any size to its low byte (R93). -/
theorem ofNat_maskedByte (v : Nat) : BitVec.ofNat 8 (v &&& 0xFF) = BitVec.ofNat 8 v := by
  apply BitVec.eq_of_toNat_eq
  simp [Nat.and_two_pow_sub_one_eq_mod v 8]

theorem zeroExtend_maskedByte (v : Nat) : (BitVec.ofNat 8 v).zeroExtend 16 = BitVec.ofNat 16 (v &&& 0xFF) := by
  apply BitVec.eq_of_toNat_eq
  simp [Nat.and_two_pow_sub_one_eq_mod v 8]

theorem encode_sendk (v : Nat) (a : Bool) :
    encode (sendk v a) = 0x7700#16 ||| bitAt a 11 ||| BitVec.ofNat 16 (v &&& 0xFF) := by
  have hhead : 0x6000#16 ||| bitAt true 12 ||| bitAt a 11 ||| BitVec.ofNat 16 (8 - 1) <<< 8 =
      0x7700#16 ||| bitAt a 11 := by
    cases a <;> rfl
  rw [← hhead, ← zeroExtend_maskedByte]
  exact encode_send (BitVec.ofNat 8 v) 8 a true (by decide) (by decide)

theorem waitCmds_sum (d : Nat) : ((waitCmds d).map waitOf).sum = d := by
  have hmillis : ((if d % 4095000 / 1000 = 0 then [] else [Instr.waitm (BitVec.ofNat 12 (d % 4095000 / 1000))]).map
      waitOf).sum = 1000 * (d % 4095000 / 1000) := by
    split <;> simp [waitOf, microsOfM] <;> omega
  have hmicros : ((if d % 1000 = 0 then [] else [Instr.waitu (BitVec.ofNat 12 (d % 1000))]).map waitOf).sum =
      d % 1000 := by
    split <;> simp [waitOf, microsOfU] <;> omega
  have hfull : ((List.replicate (d / 4095000) (Instr.waitm 4095)).map waitOf).sum = 4095000 * (d / 4095000) := by
    simp [waitOf, microsOfM, mul_comm]
  simp only [waitCmds, List.map_append, List.sum_append, hfull, hmillis, hmicros]
  omega

theorem waitCmds_wf (d : Nat) : ∀ i ∈ waitCmds d, i.wf = true := by
  simp [waitCmds, or_imp, forall_and, Instr.wf]

/-- Settles O53: the commands of the pseudo-instructions, and the words of these. -/
theorem pseudoInstructionsExpand : Obligations.PseudoInstructionsExpand := by
  unfold Obligations.PseudoInstructionsExpand
  refine ⟨fun v => ⟨?_, ?_⟩, fun v a => ⟨?_, encode_sendk v a⟩, rfl, rfl, rfl, rfl, rfl, rfl, fun d =>
    ⟨waitCmds_sum d, waitCmds_wf d, _, List.append_assoc .., rfl⟩⟩
  · rw [ofNat_maskedByte]
    rfl
  · exact encode_sendk v false
  · rw [ofNat_maskedByte]
    rfl

/-! ## Commands that the assembler reads -/

/-- Whatever commands `o` answers have encodings. -/
def OnlyEncodable (o : Option (List Instr)) : Prop :=
  ∀ is ∈ o, ∀ i ∈ is, i.wf = true

namespace OnlyEncodable

theorem none : OnlyEncodable none := by
  simp [OnlyEncodable]

theorem one {i : Instr} (h : i.wf = true) : OnlyEncodable (some [i]) := by
  simpa [OnlyEncodable] using h

theorem map {α : Type} {o : Option α} {f : α → Instr} (h : ∀ x ∈ o, (f x).wf = true) :
    OnlyEncodable (o.map fun x => [f x]) := by
  simpa [OnlyEncodable] using h

theorem mapBind {o : Option Nat} {f : Nat → Option Instr} (h : ∀ v, ∀ i ∈ f v, i.wf = true) :
    OnlyEncodable ((o.bind f).map fun i => [i]) := by
  refine map fun i hi => ?_
  obtain ⟨v, _, hv⟩ := Option.mem_bind_iff.mp hi
  exact h v i hv

end OnlyEncodable

/-- SEND's operands are the only ones that an encoding needs in a range (R76). -/
theorem asmSend_wf {v n a w : Nat} : ∀ i ∈ asmSend v n a w, i.wf = true := by
  unfold asmSend
  split
  · split
    · next hr =>
      rintro _ ⟨⟩
      simp [Instr.wf, hr]
    · simp
  · simp

theorem asmStore_wf (da : Nat) : ∀ i ∈ asmStore da, i.wf = true := by
  unfold asmStore
  split <;> simp [Instr.wf]

theorem asmWaitu_wf (c : Nat) : ∀ i ∈ asmWaitu c, i.wf = true := by
  unfold asmWaitu
  split <;> simp [Instr.wf]

theorem asmWaitm_wf (c : Nat) : ∀ i ∈ asmWaitm c, i.wf = true := by
  unfold asmWaitm
  split <;> simp [Instr.wf]

theorem asmCommand_onlyEncodable (m : List Char) (ops : List (List Char)) : OnlyEncodable (asmCommand m ops) := by
  unfold asmCommand
  split
  · exact .one rfl
  · exact .one rfl
  · split
    · exact .map asmSend_wf
    · exact .none
  · exact .map fun _ _ => rfl
  · exact .mapBind asmStore_wf
  · split
    · exact .one rfl
    · exact .none
  · split
    · exact .one rfl
    · exact .none
  · exact .map fun _ _ => rfl
  · exact .map fun _ _ => rfl
  · exact .mapBind asmWaitu_wf
  · exact .mapBind asmWaitm_wf
  · exact .map fun _ _ => rfl
  · split
    · exact .one rfl
    · exact .none
  · exact .one rfl
  · exact .one rfl
  · exact .one rfl
  · intro is his
    obtain ⟨d, _, rfl⟩ := Option.mem_map.mp his
    exact waitCmds_wf d
  · exact .none

theorem asmLine_onlyEncodable (line : List Char) : OnlyEncodable (asmLine line) := by
  simp only [asmLine]
  split
  · simp [OnlyEncodable]
  · exact asmCommand_onlyEncodable _ _

theorem asmLines_onlyEncodable (lines : List (List Char)) : OnlyEncodable (asmLines lines) := by
  induction lines with
  | nil => simp [asmLines, OnlyEncodable]
  | cons line rest ih =>
    unfold asmLines
    split
    · next is is' hline hrest =>
      rintro _ ⟨⟩ i hi
      exact (List.mem_append.mp hi).elim (asmLine_onlyEncodable line is hline i) (ih is' hrest i)
    · exact .none

/-- Settles O54: every line's commands have encodings, and the words are theirs. -/
theorem assembledCommandsHaveEncodings : Obligations.AssembledCommandsHaveEncodings := by
  unfold Obligations.AssembledCommandsHaveEncodings
  refine ⟨asmLine_onlyEncodable, fun text ws h => ?_⟩
  obtain ⟨is, his, rfl⟩ := Option.map_eq_some_iff.mp h
  exact ⟨is, his, rfl, asmLines_onlyEncodable _ is his⟩

/-! ## Operands that the assembler refuses -/

section
variable (vs ns as ws ls xs : List Char)

theorem asmCommand_send : asmCommand "SEND".toList [vs, ns, as, ws] =
    (parseNumber vs).bind fun v => (parseNumber ns).bind fun n => (parseNumber as).bind fun a =>
      (parseNumber ws).bind fun w => (asmSend v n a w).map fun i => [i] := by
  simp only [asmCommand, String.ofList_toList]
  cases parseNumber vs <;> cases parseNumber ns <;> cases parseNumber as <;> cases parseNumber ws <;> rfl

theorem asmCommand_rack : asmCommand "RACK".toList [xs] =
    ((parseNumber xs).bind bitOperand).map fun a => [.rack a] := rfl

theorem asmCommand_store : asmCommand "STORE".toList [xs] =
    ((parseNumber xs).bind asmStore).map fun i => [i] := rfl

theorem asmCommand_ldir : asmCommand "LDIR".toList [ls, xs] =
    (parseLine ls).bind fun l => (parseDir xs).map fun d => [.ldir l d] := by
  simp only [asmCommand, String.ofList_toList]
  cases parseLine ls <;> cases parseDir xs <;> rfl

theorem asmCommand_lwr : asmCommand "LWR".toList [ls, xs] =
    (parseLine ls).bind fun l => (parseLevel xs).map fun v => [.lwr l v] := by
  simp only [asmCommand, String.ofList_toList]
  cases parseLine ls <;> cases parseLevel xs <;> rfl

theorem asmCommand_lrd : asmCommand "LRD".toList [ls] = (parseLine ls).map fun l => [.lrd l] := rfl

theorem asmCommand_lmux : asmCommand "LMUX".toList [xs] = (parseMux xs).map fun m => [.lmux m] := rfl

theorem asmCommand_waitu : asmCommand "WAITU".toList [xs] =
    ((parseNumber xs).bind asmWaitu).map fun i => [i] := rfl

theorem asmCommand_waitm : asmCommand "WAITM".toList [xs] =
    ((parseNumber xs).bind asmWaitm).map fun i => [i] := rfl

end

theorem bitOperand_eq (k : Nat) : bitOperand k = if k ≤ 1 then some (decide (k = 1)) else none := by
  match k with
  | 0 => rfl
  | 1 => rfl
  | k + 2 => rfl

theorem asmSend_eq (v n a w : Nat) : asmSend v n a w =
    if v ≤ 255 ∧ (1 ≤ n ∧ n ≤ 8) ∧ a ≤ 1 ∧ w ≤ 1 then
      some (.send (BitVec.ofNat 8 v) n (decide (a = 1)) (decide (w = 1)))
    else none := by
  unfold asmSend
  rw [bitOperand_eq, bitOperand_eq]
  by_cases ha : a ≤ 1 <;> by_cases hw : w ≤ 1 <;> simp [ha, hw]

/-- `LOW` and `HIGH` are no numbers, so a level that is a number is a one-bit operand. -/
theorem parseLevel_of_number {cs : List Char} {c : Nat} (h : parseNumber cs = some c) :
    parseLevel cs = bitOperand c := by
  have hlow : cs ≠ ['L', 'O', 'W'] := by
    rintro rfl
    simp [show parseNumber ['L', 'O', 'W'] = none by decide] at h
  have hhigh : cs ≠ ['H', 'I', 'G', 'H'] := by
    rintro rfl
    simp [show parseNumber ['H', 'I', 'G', 'H'] = none by decide] at h
  simp [parseLevel, hlow, hhigh, h]

theorem asmLines_of_error {lines : List (List Char)} {line : List Char} (hmem : line ∈ lines)
    (herr : asmLine line = none) : asmLines lines = none := by
  induction lines with
  | nil => cases hmem
  | cons l ls ih =>
    obtain rfl | htail := List.mem_cons.mp hmem
    · simp [asmLines, herr]
    · simp [asmLines, ih htail]

/-- Settles O55: each mnemonic's operands are parsed and then checked for their ranges. -/
theorem assemblerRefusesOperandsOutOfRange : Obligations.AssemblerRefusesOperandsOutOfRange := by
  unfold Obligations.AssemblerRefusesOperandsOutOfRange
  refine ⟨fun vs ns as ws v n a w hv hn ha hw => ?_, fun cs c hc => ⟨?_, ?_, ?_, ?_, fun ls l hl => ?_⟩,
    fun cs hc => ?_, fun ls xs hl => ?_, fun ls xs => ⟨fun hx => ?_, fun hx => ?_, fun hx => ?_⟩,
    fun lines line => asmLines_of_error⟩
  · rw [asmCommand_send, hv, hn, ha, hw]
    simp [asmSend_eq, Option.map_if]
  · rw [asmCommand_rack, hc]
    simp [bitOperand_eq, Option.map_if]
  · rw [asmCommand_store, hc]
    simp [asmStore, Option.map_if]
  · rw [asmCommand_waitu, hc]
    simp [asmWaitu, Option.map_if]
  · rw [asmCommand_waitm, hc]
    simp [asmWaitm, Option.map_if]
  · rw [asmCommand_lwr, hl, parseLevel_of_number hc]
    simp [bitOperand_eq, Option.map_if]
  · simp only [asmCommand_rack, asmCommand_store, asmCommand_waitu, asmCommand_waitm, asmCommand_send, hc,
      Option.bind_none, Option.bind_fun_none, Option.map_none, implies_true, and_self]
  · simp only [asmCommand_ldir, asmCommand_lwr, asmCommand_lrd, hl, Option.bind_none, Option.map_none, and_self]
  · simp only [asmCommand_ldir, hx, Option.map_none, Option.bind_fun_none]
  · simp only [asmCommand_lwr, hx, Option.map_none, Option.bind_fun_none]
  · simp only [asmCommand_lmux, hx, Option.map_none]

end Sys2Proof.Machine
end

section
/-!
SUPPORT. The line commands LDIR, LWR and LRD (R101 to R103) and the timing commands WAITU and WAITM (R105, R106): each
is one statement, after a mode check or without one.
-/

namespace Sys2Proof.Machine

/-! ## A line and its pin -/

section
variable (s : State) (l : Line)

@[simp] theorem State.begin_line (c : List Stmt) : (s.begin c).line l = s.line l := by cases l <;> rfl
@[simp] theorem State.finish_line : s.finish.line l = s.line l := by cases l <;> rfl
@[simp] theorem State.lineDir_line (l' : Line) (d : Dir) : (s.lineDir l' d).line l = (s.turn l' d).line l := by
  cases l <;> rfl

/-- A line has the direction it was turned to (R28). -/
theorem State.turn_line_dir (d : Dir) : ((s.turn l d).line l).dir = d := by
  cases d with
  | input => rw [State.turn_input_line]
  | output => rw [State.turn_output_line]

end

section
variable {s : State} {l : Line}

/-- The latch outlasts a turn to IN, and under RETAIN one to OUT (R28). -/
theorem State.turn_line_lat_kept {d : Dir} (h : d = .input ∨ s.params.latchOnOut = .retain) :
    ((s.turn l d).line l).lat = (s.line l).lat := by
  cases d with
  | input => rw [State.turn_input_line]
  | output => simp [State.latchAfterOut, h.resolve_left Dir.noConfusion]

/-- Under DRAW a turn to OUT draws the latch (R28). -/
theorem State.turn_output_lat_draw (hd : s.params.latchOnOut = .draw) {v : Word} {vs : List Word}
    (hv : s.env.values = v :: vs) : ((s.turn l .output).line l).lat = v.getLsbD 0 := by
  rw [State.turn_output_line]
  exact State.latchAfterOut_draw l hd hv

theorem State.pin_driven (hm : s.mux = .gpio) (hd : (s.line l).dir = .output) :
    s.pin l = .driven (s.line l).lat := by
  simp only [State.pin, hm, hd]

theorem State.pin_released (hm : s.mux = .gpio) (hd : (s.line l).dir = .input) : s.pin l = .released := by
  simp only [State.pin, hm, hd]

/-- A read of an OUT line returns its latch (R27). -/
theorem State.readLevel_output (hd : (s.line l).dir = .output) : s.readLevel l = (s.line l).lat := by
  simp only [State.readLevel, hd]

/-- A read of an IN line returns the environment's answer, where one is listed (R27). -/
theorem State.readLevel_answered (hd : (s.line l).dir = .input) {b : Bool} {bs : List Bool}
    (ha : s.env.answers = b :: bs) : s.readLevel l = b := by
  rw [State.readLevel_input hd]
  simp [State.nextAnswer, ha]

end

/-! ## Commands of one statement -/

section
variable {i : Instr} {st : Stmt} {s : State}

theorem exec_statement (hi : body i = [st]) : exec i s = .next (doStmt st (s.begin [])).finish := by
  rw [exec_eq_run, hi, run_cons, State.andThen_nil]

theorem exec_checkedStatement (hi : body i = [.requireGpio, st]) (hm : s.mux = .gpio) :
    exec i s = .next (doStmt st (s.begin [])).finish := by
  rw [exec_eq_run, hi, run_checkedGpio (s := s.begin []) rfl hm, run_cons, State.andThen_nil]

/-- A command whose mode check fails only enters the fault (R100, R205). -/
theorem exec_checkGpioFails {rest : List Stmt} (hi : body i = .requireGpio :: rest) (hm : s.mux ≠ .gpio) :
    exec i s = .next (faulted s .modeErr) := by
  rw [exec_eq_run, hi, run_checkGpioFails (s := s.begin []) hm]
  rfl

end

/-! ## LDIR, LWR and LRD -/

section
variable (l : Line) {s : State}

theorem exec_ldir (d : Dir) (hm : s.mux = .gpio) : exec (.ldir l d) s = .next ((s.begin []).lineDir l d).finish :=
  exec_checkedStatement (st := .lineDir l d) rfl hm

theorem exec_lwr (v : Bool) (hm : s.mux = .gpio) : exec (.lwr l v) s = .next ((s.begin []).lineWrite l v).finish :=
  exec_checkedStatement (st := .lineWrite l v) rfl hm

theorem exec_lrd (hm : s.mux = .gpio) :
    exec (.lrd l) s = .next (((s.begin []).lineRead l).setResult ((s.begin []).readLevel l) false).finish :=
  exec_checkedStatement (st := .readResult l) rfl hm

end

/-- Settles O30: LDIR is its mode check and then a turn of the line. -/
theorem ldirSetsTheDirection : Obligations.LdirSetsTheDirection := by
  unfold Obligations.LdirSetsTheDirection
  refine fun l d s => ⟨fun hm => ?_, exec_checkGpioFails rfl, by cases l <;> cases d <;> rfl⟩
  have hline (l' : Line) : ((s.begin []).lineDir l d).finish.line l' = ((s.begin []).turn l d).line l' := by simp
  have hdir : (((s.begin []).lineDir l d).finish.line l).dir = d := by rw [hline, State.turn_line_dir]
  have hmux : ((s.begin []).lineDir l d).finish.mux = .gpio := by simpa using hm
  refine ⟨_, exec_ldir l d hm, hdir, fun hkept => ?_, ?_, ?_, ?_, fun l' hl => ?_, hmux, by simp, by simp, ⟨rfl, rfl⟩,
    by simp [SameRest], ((s.begin []).lineDir_emits l d).ofCommand⟩
  · rw [hline, State.turn_line_lat_kept (s := s.begin []) hkept, State.begin_line]
  · rintro rfl hd v vs hv
    rw [hline, State.turn_output_lat_draw (s := s.begin []) hd hv]
  · exact fun hin => State.pin_released hmux (hdir.trans hin)
  · exact fun hout => State.pin_driven hmux (hdir.trans hout)
  · rw [hline, State.turn_line_other _ _ hl, State.begin_line]

/-- Settles O31: LWR is its mode check and then a write of the line's latch. -/
theorem lwrSetsTheLatch : Obligations.LwrSetsTheLatch := by
  unfold Obligations.LwrSetsTheLatch
  refine fun l v s => ⟨fun hm => ?_, exec_checkGpioFails rfl, by cases l <;> cases v <;> rfl⟩
  have hline : ((s.begin []).lineWrite l v).finish.line l = { dir := (s.line l).dir, lat := v } := by simp
  have hmux : ((s.begin []).lineWrite l v).finish.mux = .gpio := by simpa using hm
  refine ⟨_, exec_lwr l v hm, hline, fun hout => ?_, fun hin => ?_, fun l' hl => ?_, hmux, by simp, by simp, ⟨rfl, rfl⟩,
    by simp [SameRest], ((s.begin []).lineWrite_emits l v).ofCommand⟩
  · rw [State.pin_driven hmux (by rw [hline, hout]), hline]
  · exact State.pin_released hmux (by rw [hline, hin])
  · rw [State.finish_line, State.lineWrite_line_other _ _ hl, State.begin_line]

/-- Settles O32: LRD is its mode check and then a read of the line, whose level is the result. -/
theorem lrdReturnsTheLevel : Obligations.LrdReturnsTheLevel := by
  unfold Obligations.LrdReturnsTheLevel
  refine fun l s => ⟨fun hm => ?_, exec_checkGpioFails rfl, by cases l <;> rfl⟩
  have hline : (s.begin []).line l = s.line l := s.begin_line l []
  refine ⟨_, exec_lrd l hm, fun hout => ?_, fun hin b bs ha => ?_, rfl, by simp, by simp, by simpa using hm, ⟨rfl, rfl⟩,
    by simp [SameRest], ((s.begin []).lineRead_emits l).of_eq rfl rfl rfl rfl⟩
  · rw [← hline] at hout ⊢
    exact State.readLevel_output hout
  · exact State.readLevel_answered (s := s.begin []) (hline ▸ hin) ha

/-! ## WAITU and WAITM -/

/-- A command that is one `Delay(d)` lasts at least `d` and changes nothing but time and the trace (R33). -/
theorem exec_delay {i : Instr} {d : Nat} (hi : body i = [.delay d]) (s : State) :
    ∃ t, exec i s = .next t ∧ s.t + d ≤ t.t ∧ t.mux = s.mux ∧ t.scl = s.scl ∧ t.sda = s.sda ∧
      t.res = s.res ∧ t.timedOut = s.timedOut ∧ t.idle ∧ SameRest s t ∧ Emits s t [.delay d] := by
  have hE : Emits s ((s.begin []).delay d).finish [.delay d] := ((s.begin []).delay_emits d).ofCommand
  exact ⟨_, exec_statement hi, hE.minTime_le, rfl, rfl, rfl, rfl, rfl, ⟨rfl, rfl⟩, .refl s, hE⟩

/-- Settles O35: both commands are one delay. -/
theorem waitsTakeAtLeastTheirTime : Obligations.WaitsTakeAtLeastTheirTime := by
  unfold Obligations.WaitsTakeAtLeastTheirTime
  exact fun c s => ⟨exec_delay rfl s, exec_delay rfl s, append_eq_or rfl (0b111#3 ++ 0#1) c,
    append_eq_or rfl (0b111#3 ++ 1#1) c⟩

end Sys2Proof.Machine
end

section
/-!
SUPPORT. The signal commands that wait for no acknowledgment: START (R130), STOP (R131) and SEND with W = 0 (R133), and
START followed by STOP (R137).
-/

namespace Sys2Proof.Machine

/-- A line that is OUT, with its latch. -/
theorem LineState.eq_of_output {x : LineState} {v : Bool} (hd : x.dir = .output) (hv : x.lat = v) :
    x = ⟨.output, v⟩ := by
  cases x
  cases hd
  cases hv
  rfl

/-- A run from the beginning of a command, with the latches it leaves, seen at the command's end (R31, R55). -/
theorem SignalRun.ofCommand {s t : State} {evs : List Event} {k : Nat} (h : SignalRun (s.begin []) t evs k)
    {x y : Bool} (hx : t.scl.lat = x) (hy : t.sda.lat = y) :
    t.finish.scl = ⟨.output, x⟩ ∧ t.finish.sda = ⟨.output, y⟩ ∧ t.finish.mux = .gpio ∧ t.finish.idle ∧
      SameRest s t.finish ∧ Emits s t.finish evs := by
  obtain ⟨hmux, hscl, hsda⟩ := h.out
  exact ⟨LineState.eq_of_output hscl hx, LineState.eq_of_output hsda hy, hmux, ⟨rfl, rfl⟩, h.rest, h.emits.ofCommand⟩

/-- A signal command whose mode check fails only enters the fault (R100, R205). -/
theorem exec_checkOutFails {i : Instr} {rest : List Stmt} {s : State} (hi : body i = .requireGpioOut :: rest)
    (hg : ¬ s.gpioOut) : exec i s = .next (faulted s .modeErr) := by
  rw [exec_eq_run, hi, run_checkFails (s := s.begin []) hg]
  rfl

/-! ## START and STOP -/

theorem run_startBody {s : State} (hb : s.busy = true) (hg : s.gpioOut) :
    SignalRun s (run startBody s) startEvents 0 := by
  rw [startBody, run_checked hb hg]
  exact run_plainCode (evs := startEvents.map ([·])) rfl (by simp) hb hg

/-- START leaves both latches LOW, and the result bits alone. -/
theorem run_startBody_values {s : State} (hb : s.busy = true) (hg : s.gpioOut) :
    (run startBody s).scl.lat = false ∧ (run startBody s).sda.lat = false ∧ (run startBody s).res = s.res ∧
      (run startBody s).timedOut = s.timedOut := by
  simp [startBody, run_checked hb hg, run_cons, doStmt, hb]

/-- STOP leaves both latches HIGH, and the result bits alone. -/
theorem run_stopBody_values {s : State} (hb : s.busy = true) (hg : s.gpioOut) :
    (run stopBody s).scl.lat = true ∧ (run stopBody s).sda.lat = true ∧ (run stopBody s).res = s.res ∧
      (run stopBody s).timedOut = s.timedOut := by
  simp [stopBody, run_checked hb hg, run_cons, doStmt, hb]

/-- Settles O36: START is its mode check and then seven primitives. -/
theorem startMakesTheStartSequence : Obligations.StartMakesTheStartSequence := by
  unfold Obligations.StartMakesTheStartSequence
  refine fun s => ⟨fun hg => ?_, exec_checkOutFails rfl, rfl⟩
  have hrun := run_startBody (s := s.begin []) rfl hg
  obtain ⟨hsclLow, hsdaLow, hres, hto⟩ := run_startBody_values (s := s.begin []) rfl hg
  obtain ⟨hscl, hsda, hmux, hidle, hrest, hE⟩ := hrun.ofCommand hsclLow hsdaLow
  exact ⟨_, exec_eq_run .start s, hscl, hsda, hmux, hres, hto, hidle, hrest, hE⟩

/-- Settles O37: STOP is its mode check and then six primitives. -/
theorem stopMakesTheStopSequence : Obligations.StopMakesTheStopSequence := by
  unfold Obligations.StopMakesTheStopSequence
  refine fun s => ⟨fun hg => ?_, exec_checkOutFails rfl, rfl⟩
  have hrun := run_stopBody (s := s.begin []) rfl hg
  obtain ⟨hsclHigh, hsdaHigh, hres, hto⟩ := run_stopBody_values (s := s.begin []) rfl hg
  obtain ⟨hscl, hsda, hmux, hidle, hrest, hE⟩ := hrun.ofCommand hsclHigh hsdaHigh
  exact ⟨_, exec_eq_run .stop s, hscl, hsda, hmux, hres, hto, hidle, hrest, hE⟩

/-- Settles O41: START leaves both lines driven, and STOP then both HIGH. -/
theorem startThenStopLeavesLinesHigh : Obligations.StartThenStopLeavesLinesHigh := by
  unfold Obligations.StartThenStopLeavesLinesHigh
  intro s hg
  obtain ⟨hstart, _, _⟩ := startMakesTheStartSequence s
  obtain ⟨u, hu, huscl, husda, humux, hures, huto, _, ⟨hufault, _⟩, _⟩ := hstart hg
  obtain ⟨hstop, _, _⟩ := stopMakesTheStopSequence u
  obtain ⟨t, ht, hscl, hsda, _, hres, hto, _, ⟨hfault, _⟩, _⟩ := hstop ⟨humux, by rw [huscl], by rw [husda]⟩
  exact ⟨t, by simp only [execAll, hu, ht], hscl, hsda, hfault.trans hufault, hres.trans hures, hto.trans huto⟩

/-! ## SEND with W = 0 -/

/-- SEND's bit loop as a signal run (R133). -/
theorem BitsSent.signalRun {v : Byte} {n : Nat} {s t : State} (h : BitsSent v n s t) (hb : s.busy = true)
    (hg : s.gpioOut) : SignalRun s t (frameEvents s.params.frameBits v n) 0 :=
  ⟨h.steady.busy.trans hb, ⟨h.steady.mux.trans hg.1, h.dirs.1.trans hg.2.1, h.dirs.2.trans hg.2.2⟩, h.steady.rest,
    h.steady.switches, by simp [h.values], h.emits⟩

/-- SEND with W = 0 is its bit loop and then its ending's three statements (R133). -/
theorem run_sendNoAck_eq (v : Byte) (n : Nat) (a : Bool) {s : State} (hb : s.busy = true) (hg : s.gpioOut) :
    run (sendBody v n a false) s = run (noAckEnd a) (run (bitLoop v n) s) := by
  have hbusy : (run (bitLoop v n) s).busy = true := (run_bitLoop v n hb).steady.busy.trans hb
  rw [sendBody, List.cons_append, run_checked hb hg, if_neg Bool.false_ne_true, run_append hb,
    State.andThen_busy _ hbusy]

theorem run_sendNoAck (v : Byte) (n : Nat) (a : Bool) {s : State} (hb : s.busy = true) (hg : s.gpioOut) :
    SignalRun s (run (sendBody v n a false) s) (frameEvents s.params.frameBits v n ++ noAckEvents) 0 := by
  have hbits := (run_bitLoop v n hb).signalRun hb hg
  rw [run_sendNoAck_eq v n a hb hg]
  exact hbits.trans (run_plainCode (evs := [[.write .sda false], [.write .scl true], []]) rfl (by simp [noAckEnd])
    hbits.busy hbits.out)

/-- SEND with W = 0 leaves SCL HIGH and SDA LOW, the expected level in RES and no timeout. -/
theorem run_sendNoAck_values (v : Byte) (n : Nat) (a : Bool) {s : State} (hb : s.busy = true) (hg : s.gpioOut) :
    (run (sendBody v n a false) s).scl.lat = true ∧ (run (sendBody v n a false) s).sda.lat = false ∧
      (run (sendBody v n a false) s).res = a ∧ (run (sendBody v n a false) s).timedOut = false := by
  have hbusy : (run (bitLoop v n) s).busy = true := (run_bitLoop v n hb).steady.busy.trans hb
  simp [run_sendNoAck_eq v n a hb hg, noAckEnd, run_cons, doStmt, hbusy]

/-- Settles O38: SEND with W = 0 is its bit loop and then its ending without the ack cycle. -/
theorem sendWithoutAck : Obligations.SendWithoutAck := by
  unfold Obligations.SendWithoutAck
  intro v n a s _ _ hg
  have hrun := run_sendNoAck v n a (s := s.begin []) rfl hg
  obtain ⟨hsclHigh, hsdaLow, hres, hto⟩ := run_sendNoAck_values v n a (s := s.begin []) rfl hg
  obtain ⟨hscl, hsda, hmux, hidle, hrest, hE⟩ := hrun.ofCommand hsclHigh hsdaLow
  exact ⟨_, exec_eq_run (.send v n a false) s, hscl, hsda, hmux, hres, hto, hidle, hrest, hE⟩

end Sys2Proof.Machine
end

section
/-!
SUPPORT. What each signal command puts on the trace (R130 to R135), and the clock pulses of SEND counted on it (R136).
-/

namespace Sys2Proof.Machine

/-! ## The traces of the signal commands -/

/-- The events of a command's run are those of the command. -/
theorem Emits.ofExec {i : Instr} {s t : State} {evs : List Event} (h : exec i s = .next t)
    (hE : Emits (s.begin []) (run (body i) (s.begin [])) evs) : Emits s t evs := by
  rw [exec_eq_run] at h
  cases h
  exact hE.ofCommand

section
variable {s t : State} {v : Byte} {n : Nat} {a : Bool}

theorem exec_start_emits (h : exec .start s = .next t) (hg : s.gpioOut) : Emits s t startEvents :=
  .ofExec h (run_startBody (s := s.begin []) rfl hg).emits

theorem exec_stop_emits (h : exec .stop s = .next t) (hg : s.gpioOut) : Emits s t stopEvents :=
  .ofExec h (run_stopBody (s := s.begin []) rfl hg).emits

theorem exec_sendNoAck_emits (h : exec (.send v n a false) s = .next t) (hg : s.gpioOut) :
    Emits s t (frameEvents s.params.frameBits v n ++ noAckEvents) :=
  .ofExec h (run_sendNoAck v n a (s := s.begin []) rfl hg).emits

/-- A command that ends in an ack cycle (R134): after the events `bits` the reads `rs`, and the result they give. -/
structure EndsInAckCycle (a : Bool) (bits : List Event) (s t : State) (rs : List Bool) : Prop where
  reads  : ackReads a rs
  last   : rs.getLast? = some t.res
  missed : t.timedOut = (t.res != a)
  emits  : Emits s t (bits ++ ackEvents a rs)

theorem exec_sendAck_ends (h : exec (.send v n a true) s = .next t) (hg : s.gpioOut) :
    ∃ rs, EndsInAckCycle a (frameEvents s.params.frameBits v n) s t rs := by
  obtain ⟨_, rs, _, hack, hE⟩ := run_sendAck (v := v) (n := n) (a := a) (s := s.begin []) rfl hg
  have hemits := hE.ofExec (i := .send v n a true) h
  rw [exec_eq_run] at h
  cases h
  exact ⟨rs, hack.reads, hack.last, hack.missed, hemits⟩

theorem exec_rack_ends (h : exec (.rack a) s = .next t) (hg : s.gpioOut) : ∃ rs, EndsInAckCycle a [] s t rs := by
  have hrun : run (body (.rack a)) (s.begin []) = run (ackCycle a) (s.begin []) := run_checked rfl hg
  obtain ⟨rs, hack, hE⟩ := run_ackCycle_end a (s := s.begin []) rfl
  rw [← hrun] at hack hE
  have hemits := hE.ofExec h
  rw [exec_eq_run] at h
  cases h
  exact ⟨rs, hack.reads, hack.last, hack.missed, hemits⟩

end

/-! ## Counting events -/

/-- What each clock period has `k` of, the bit loop's N periods have N times `k` of. -/
theorem frameEvents_countP {p : Event → Bool} {k : Nat} (hp : ∀ b, (bitEvents b).countP p = k)
    (sel : Config.FrameBitSelect) (v : Byte) (n : Nat) : (frameEvents sel v n).countP p = n * k := by
  simp [frameEvents, List.countP_flatMap, Function.comp_def, hp]

theorem frameEvents_count_sclWrite (sel : Config.FrameBitSelect) (v : Byte) (n : Nat) (x : Bool) :
    (frameEvents sel v n).count (.write .scl x) = n := by
  have hbit (b : Bool) : (bitEvents b).count (.write .scl x) = 1 := by cases b <;> cases x <;> decide
  exact (frameEvents_countP hbit sel v n).trans (n.mul_one)

/-- Polling writes no line. -/
theorem pollEvents_count_write (a : Bool) (rs : List Bool) (l : Line) (x : Bool) :
    (pollEvents a rs).count (.write l x) = 0 := by
  induction rs with
  | nil => rfl
  | cons r rs ih =>
    have hr : (pollEvents a [r]).count (.write l x) = 0 := by cases a <;> cases r <;> rfl
    rw [pollEvents_cons, List.count_append, hr, ih]

/-- The ack cycle makes one clock pulse, however often it polls (R134). -/
theorem ackEvents_count_sclWrite (a : Bool) (rs : List Bool) (x : Bool) :
    (ackEvents a rs).count (.write .scl x) = 1 := by
  rw [ackEvents, List.count_append, List.count_append, pollEvents_count_write]
  cases x <;> decide

/-- Settles O42: a pulse for each bit, and the pulse or the rise of SEND's ending. -/
theorem sendMakesItsClockPulses : Obligations.SendMakesItsClockPulses := by
  unfold Obligations.SendMakesItsClockPulses
  intro v n a w s _ _ hg
  have hexec := exec_eq_run (.send v n a w) s
  cases w with
  | true =>
    obtain ⟨rs, hends⟩ := exec_sendAck_ends hexec hg
    have hcount (x : Bool) :
        (frameEvents s.params.frameBits v n ++ ackEvents a rs).count (.write .scl x) = n + 1 := by
      rw [List.count_append, frameEvents_count_sclWrite, ackEvents_count_sclWrite]
    exact ⟨_, _, hexec, hends.emits, hcount true, hcount false⟩
  | false =>
    have hcount (x : Bool) : (frameEvents s.params.frameBits v n ++ noAckEvents).count (.write .scl x) =
        n + noAckEvents.count (.write .scl x) := by
      rw [List.count_append, frameEvents_count_sclWrite]
    exact ⟨_, _, hexec, exec_sendNoAck_emits hexec hg, hcount true, hcount false⟩

end Sys2Proof.Machine
end

section
/-!
SUPPORT. The start and stop conditions on the traces of the signal commands, and the level of SCL at their reads (R138,
GK1; log 23).
-/

namespace Sys2Proof.Machine

/-! ## Bus conditions -/

/-- Bits written while SCL is low, each with its clock pulse, make no condition. -/
theorem busConditions_frame {sel : Config.FrameBitSelect} {v : Byte} {n : Nat} {es : List Event}
    (hes : ∀ sda, busConditions false sda es = []) (sda : Bool) :
    busConditions false sda (frameEvents sel v n ++ es) = [] := by
  unfold frameEvents
  induction List.range n generalizing sda with
  | nil => exact hes sda
  | cons i is ih => simpa [bitEvents, busConditions] using ih _

/-- Polling changes neither level. -/
theorem busConditions_poll (a : Bool) (rs : List Bool) (scl sda : Bool) (es : List Event) :
    busConditions scl sda (pollEvents a rs ++ es) = busConditions scl sda es := by
  induction rs with
  | nil => rfl
  | cons r rs ih =>
    have hr (es : List Event) : busConditions scl sda (pollEvents a [r] ++ es) = busConditions scl sda es := by
      cases a <;> cases r <;> rfl
    rw [pollEvents_cons, List.append_assoc, hr, ih]

/-- The ack cycle writes no level to SDA (R134). -/
theorem busConditions_ack (a : Bool) (rs : List Bool) (scl sda : Bool) :
    busConditions scl sda (ackEvents a rs) = [] := by
  simp [ackEvents, busConditions, busConditions_poll]

theorem busConditions_noAck (sda : Bool) : busConditions false sda noAckEvents = [] := by
  simp [noAckEvents, busConditions]

/-! ## Reads -/

/-- The bit loop reads nothing. -/
theorem readsWhileSclHigh_frame {sel : Config.FrameBitSelect} {v : Byte} {n : Nat} {es : List Event}
    (hes : ∀ scl, readsWhileSclHigh scl es = true) (scl : Bool) :
    readsWhileSclHigh scl (frameEvents sel v n ++ es) = true := by
  unfold frameEvents
  induction List.range n generalizing scl with
  | nil => exact hes scl
  | cons i is ih => simpa [bitEvents, readsWhileSclHigh] using ih false

theorem readsWhileSclHigh_poll (a : Bool) (rs : List Bool) (es : List Event) :
    readsWhileSclHigh true (pollEvents a rs ++ es) = readsWhileSclHigh true es := by
  induction rs with
  | nil => rfl
  | cons r rs ih =>
    have hr (es : List Event) : readsWhileSclHigh true (pollEvents a [r] ++ es) = readsWhileSclHigh true es := by
      cases a <;> cases r <;> rfl
    rw [pollEvents_cons, List.append_assoc, hr, ih]

/-- The ack cycle raises SCL before its first read and lowers it after its last (R134). -/
theorem readsWhileSclHigh_ack (a : Bool) (rs : List Bool) (scl : Bool) :
    readsWhileSclHigh scl (ackEvents a rs) = true := by
  simp [ackEvents, readsWhileSclHigh, readsWhileSclHigh_poll]

theorem readsWhileSclHigh_noAck (scl : Bool) : readsWhileSclHigh scl noAckEvents = true := by
  simp [noAckEvents, readsWhileSclHigh]

/-! ## The obligation -/

/-- START makes a start condition, and before it a stop condition when its write of SDA is a rise. -/
theorem busConditions_start (scl sda : Bool) :
    busConditions scl sda startEvents = if sda then [.start] else [.stop, .start] := by
  cases scl <;> cases sda <;> rfl

/-- STOP makes a stop condition, and before it a start condition when its write of SDA is a fall while SCL is high. -/
theorem busConditions_stop (scl sda : Bool) :
    busConditions scl sda stopEvents = if scl && sda then [.start, .stop] else [.stop] := by
  cases scl <;> cases sda <;> rfl

/-- Settles O43, by the traces of the four commands. -/
theorem signalCommandsMakeTheirBusConditions : Obligations.SignalCommandsMakeTheirBusConditions := by
  unfold Obligations.SignalCommandsMakeTheirBusConditions
  refine fun s t hg => ⟨fun h => ⟨_, exec_start_emits h hg, busConditions_start _ _⟩,
    fun h => ⟨_, exec_stop_emits h hg, busConditions_stop _ _⟩, fun v n a w _ _ h => ?_, fun a h => ?_⟩
  · cases w with
    | true =>
      obtain ⟨rs, hends⟩ := exec_sendAck_ends h hg
      refine ⟨_, hends.emits, readsWhileSclHigh_frame (readsWhileSclHigh_ack a rs) _, fun hlow => ?_⟩
      rw [hlow]
      exact busConditions_frame (busConditions_ack a rs false) _
    | false =>
      refine ⟨_, exec_sendNoAck_emits h hg, readsWhileSclHigh_frame readsWhileSclHigh_noAck _, fun hlow => ?_⟩
      rw [hlow]
      exact busConditions_frame busConditions_noAck _
  · obtain ⟨rs, hends⟩ := exec_rack_ends h hg
    exact ⟨_, hends.emits, readsWhileSclHigh_ack a rs _, fun _ => busConditions_ack a rs _ _⟩

end Sys2Proof.Machine
end

section
/-!
SUPPORT. The least times of the commands (R139, R185, R261): the lower bounds of what they put on the trace, added up.
-/

namespace Sys2Proof.Machine

/-! ## The least time of a piece of trace -/

/-- The lower bounds of the events, added up (R33, R34). -/
def leastTime (evs : List Event) : Nat :=
  (evs.map Event.minTime).sum

theorem Emits.leastTime_le {s t : State} {evs : List Event} (h : Emits s t evs) : s.t + leastTime evs ≤ t.t :=
  h.minTime_le

/-- Time does not go back (R34). -/
theorem Emits.time_le {s t : State} {evs : List Event} (h : Emits s t evs) : s.t ≤ t.t :=
  Nat.le_of_add_right_le h.leastTime_le

@[simp] theorem leastTime_append (a b : List Event) : leastTime (a ++ b) = leastTime a + leastTime b := by
  simp [leastTime]

/-- Leaving events out does not lengthen a piece of trace. -/
theorem leastTime_filter_le (p : Event → Bool) (evs : List Event) : leastTime (evs.filter p) ≤ leastTime evs :=
  ((List.filter_sublist).map Event.minTime).sum_le_sum fun _ _ => Nat.zero_le _

/-- SEND's bit loop takes 10 us a bit (R262). -/
@[simp] theorem leastTime_frameEvents (sel : Config.FrameBitSelect) (v : Byte) (n : Nat) :
    leastTime (frameEvents sel v n) = 10 * n := by
  have hbits (is : List Nat) : leastTime (is.flatMap fun i => bitEvents (frameBit sel v n i)) = 10 * is.length := by
    induction is with
    | nil => rfl
    | cons i is ih =>
      have hbit : leastTime (bitEvents (frameBit sel v n i)) = 10 := rfl
      rw [List.flatMap_cons, leastTime_append, hbit, ih, List.length_cons]
      omega
  exact (hbits (List.range n)).trans (by rw [List.length_range])

/-- A poll waits 1 us after each read that misses (R134). -/
theorem leastTime_pollEvents (a : Bool) (rs : List Bool) : leastTime (pollEvents a rs) = rs.countP (· != a) := by
  induction rs with
  | nil => rfl
  | cons r rs ih =>
    have hr : leastTime (pollEvents a [r]) = [r].countP (· != a) := by cases a <;> cases r <;> rfl
    rw [pollEvents_cons, leastTime_append, hr, ih, ← List.countP_append, List.singleton_append]

theorem leastTime_ackEvents (a : Bool) (rs : List Bool) :
    leastTime (ackEvents a rs) = 10 + rs.countP (· != a) := by
  have hbefore : leastTime [.dir .sda .input, .delay 2, .write .scl true, .delay 3] = 5 := rfl
  have hafter : leastTime [.delay 2, .write .scl false, .delay 3, .dir .sda .output] = 5 := rfl
  rw [ackEvents, leastTime_append, leastTime_append, hbefore, hafter, leastTime_pollEvents]
  omega

/-! ## The ack cycle -/

/-- Every read of an ack cycle but its last misses (R134). -/
theorem ackReads_misses {a r : Bool} {rs : List Bool} (h : ackReads a rs) (hlast : rs.getLast? = some r) :
    rs.countP (· != a) = rs.length - 1 + if r = a then 0 else 1 := by
  obtain ⟨_, _, hmiss, _⟩ := h
  have hinit : rs.dropLast.countP (· != a) = rs.length - 1 := by
    rw [List.countP_eq_length.mpr (by simpa using hmiss), List.length_dropLast]
  rw [← hinit]
  conv_lhs => rw [← List.dropLast_append_getLast? r hlast]
  rw [List.countP_append]
  cases a <;> cases r <;> rfl

/-- An ack cycle whose last read misses has made all its reads (R134). -/
theorem ackReads_timedOut {a r : Bool} {rs : List Bool} (h : ackReads a rs) (hlast : rs.getLast? = some r)
    (hr : r ≠ a) : rs.length = 250 := by
  obtain ⟨_, hmax, _, hshort⟩ := h
  by_contra hne
  have hmatch := hshort (by omega)
  rw [hlast] at hmatch
  exact hr (Option.some.inj hmatch)

/-- A command that reads only in its ack cycle takes 10 us for the cycle and 1 us for each read that misses, besides
what comes before: after a match all reads but the last have missed, on a timeout all 250 (R139). -/
theorem EndsInAckCycle.times {a : Bool} {bits : List Event} {s t : State} {rs : List Bool} {base : Nat}
    (h : EndsInAckCycle a bits s t rs) (hbits : bits.countP Event.isRead = 0) (hbase : leastTime bits = base) :
    1 ≤ (bits ++ ackEvents a rs).countP Event.isRead ∧
      (t.timedOut = false → s.t + base + 10 + ((bits ++ ackEvents a rs).countP Event.isRead - 1) ≤ t.t) ∧
      (t.timedOut = true → (bits ++ ackEvents a rs).countP Event.isRead = 250 ∧ s.t + base + 260 ≤ t.t) := by
  have hreads : (bits ++ ackEvents a rs).countP Event.isRead = rs.length := by
    rw [List.countP_append, hbits, List.countP_eq_length_filter, ackEvents_reads]
    simp
  have htime := h.emits.leastTime_le
  rw [leastTime_append, leastTime_ackEvents, ackReads_misses h.reads h.last, hbase] at htime
  rw [hreads, h.missed]
  refine ⟨h.reads.1, fun hmatch => ?_, fun hmiss => ?_⟩
  · rw [if_pos (by simpa using hmatch)] at htime
    omega
  · have hne : t.res ≠ a := by simpa using hmiss
    have hall := ackReads_timedOut h.reads h.last hne
    rw [if_neg hne] at htime
    omega

/-- Settles O44: RACK is an ack cycle, and SEND with W = 1 one after N clock periods. -/
theorem ackCyclesTakeAtLeastTheirTime : Obligations.AckCyclesTakeAtLeastTheirTime := by
  unfold Obligations.AckCyclesTakeAtLeastTheirTime
  intro i base s hg hi
  have hexec := exec_eq_run i s
  obtain ⟨a, ⟨rfl, rfl⟩ | ⟨v, n, rfl, _, _, rfl⟩⟩ := hi
  · obtain ⟨rs, hends⟩ := exec_rack_ends hexec hg
    exact ⟨_, _, hexec, hends.emits, hends.times rfl rfl⟩
  · obtain ⟨rs, hends⟩ := exec_sendAck_ends hexec hg
    have hbits : (frameEvents s.params.frameBits v n).countP Event.isRead = 0 :=
      (frameEvents_countP (k := 0) (fun _ => rfl) ..).trans n.mul_zero
    exact ⟨_, _, hexec, hends.emits, hends.times hbits (leastTime_frameEvents ..)⟩

/-! ## Every command -/

/-- A command that raises nothing has gone on to its end (R205). -/
theorem run_goesOn {code : List Stmt} {s : State} (hf : (run code s).fault = false) :
    (run code s).busy = s.busy := by
  cases run_moves code s with
  | goesOn hb _ _ => exact hb
  | raises c _ _ hf' => simp [hf'] at hf

/-- A signal command that raises nothing has passed its mode check (R100). -/
theorem gpioOut_of_noFault {rest : List Stmt} {s : State} (hf : (run (.requireGpioOut :: rest) s).fault = false) :
    s.gpioOut := by
  by_contra hg
  rw [run_checkFails hg] at hf
  cases hf

/-- A signal piece takes at least the time of what it shows, its polling left out. -/
theorem Signals.leastTime_le {code : List Stmt} {sig : Config.FrameBitSelect → List Event} {k : Nat}
    (h : Signals code sig k) {s : State} (hb : s.busy = true) (hg : s.gpioOut) :
    s.t + leastTime (sig s.params.frameBits) ≤ (run code s).t := by
  obtain ⟨evs, hrun, hsig⟩ := h s hb hg
  have hle := leastTime_filter_le notPoll evs
  have htime := hrun.emits.leastTime_le
  rw [hsig] at hle
  omega

@[simp] theorem leastTime_sendSignal (sel : Config.FrameBitSelect) (v : Byte) (n : Nat) :
    leastTime (sendSignal sel v n) = 10 * n + 10 := by
  rw [sendSignal, leastTime_append, leastTime_frameEvents]
  rfl

@[simp] theorem leastTime_headSignal (sel : Config.FrameBitSelect) : leastTime (headSignal sel) = 52 := by
  simp only [headSignal, leastTime_append, leastTime_frameEvents]
  rfl

/-- STORE's steps 2 to 7 (R185): two heads, two pairs, the address step's nine SENDs and the 10 ms wait. -/
theorem leastTime_storeSignal (sel : Config.FrameBitSelect) (da : BitVec 7) :
    leastTime (storeSignal sel da) = 11340 := by
  have hzeros : leastTime (List.replicate 8 (sendSignal sel 0x00#8 8)).flatten = 720 := by
    simp [List.replicate_succ]
  simp only [storeSignal, leastTime_append, leastTime_headSignal, leastTime_sendSignal, hzeros]
  rfl

/-- STORE that raises nothing has made its steps 2 to 7 (R172, R181). -/
theorem run_store_time (da : BitVec 7) {s : State} (hb : s.busy = true)
    (hf : (run (storeBody da) s).fault = false) : s.t + 11340 ≤ (run (storeBody da) s).t := by
  cases hn : s.nextSwitch
  · have hbusy := (run_goesOn hf).trans hb
    rw [run_storeNotSwitched da hb hn, muxOrFault_failed_busy (s := s.setStep 1) .gpio hn] at hbusy
    cases hbusy
  · obtain ⟨u, evs, h⟩ := run_storeSevenSteps da hb hn
    obtain ⟨evs', hend⟩ := run_grows storeEnd u
    have hle := leastTime_filter_le notPoll evs
    have hsteps := h.emits.leastTime_le
    have hlast := hend.time_le
    rw [h.signal, leastTime_storeSignal] at hle
    rw [h.run]
    omega

theorem run_delay_time (d : Nat) (s : State) : s.t + d ≤ (run [.delay d] s).t := by
  rw [run_cons, State.andThen_nil]
  exact (s.delay_emits d).leastTime_le

/-- The body of a command that raises nothing takes at least the command's minimum time. -/
theorem run_body_time (i : Instr) {s : State} (hb : s.busy = true) (hf : (run (body i) s).fault = false) :
    s.t + minDuration i ≤ (run (body i) s).t := by
  have hgrows : s.t ≤ (run (body i) s).t := (run_grows (body i) s).elim fun _ h => h.time_le
  cases i with
  | start => exact Signals.start.leastTime_le hb (gpioOut_of_noFault hf)
  | stop => exact Signals.stop.leastTime_le hb (gpioOut_of_noFault hf)
  | send v n a w =>
    cases w with
    | true =>
      have htime := (Signals.sendAck v n a).leastTime_le hb (gpioOut_of_noFault hf)
      rwa [leastTime_sendSignal] at htime
    | false =>
      have htime := (Signals.sendNoAck v n a).leastTime_le hb (gpioOut_of_noFault hf)
      rwa [leastTime_append, leastTime_frameEvents] at htime
  | rack a => exact (Signals.rack a).leastTime_le hb (gpioOut_of_noFault hf)
  | store da => exact run_store_time da hb hf
  | waitu c => exact run_delay_time (microsOfU c) s
  | waitm c => exact run_delay_time (microsOfM c) s
  | ldir | lwr | lrd | lmux => exact hgrows

/-- Settles O45, by what each command's body shows on the trace. -/
theorem commandsTakeAtLeastTheirTime : Obligations.CommandsTakeAtLeastTheirTime := by
  unfold Obligations.CommandsTakeAtLeastTheirTime
  intro i s t _ h hf
  rw [exec_eq_run] at h
  cases h
  exact run_body_time i (s := s.begin []) rfl hf

end Sys2Proof.Machine
end

section
/-!
SUPPORT. STORE's three ends (R172, R181, R182): its first switch fails, its last switch fails, or it runs whole.
-/

namespace Sys2Proof.Machine

/-! ## The first switch fails -/

theorem muxSet_failed_values {s : State} (m : Mux) (hn : s.nextSwitch = false) :
    (s.muxSet m).env.values = s.env.values.tail := by
  simp [s.muxSet_failed m hn]

theorem muxSet_failed_switches {s : State} (m : Mux) (hn : s.nextSwitch = false) :
    (s.muxSet m).env.switches = s.env.switches.tail := by
  simp [s.muxSet_failed m hn, State.takeSwitch, canFail_of_failed hn]

theorem muxSet_i2c_values {s : State} (hn : s.nextSwitch = true) : (s.muxSet .i2c).env.values = s.env.values := by
  simp [s.muxSet_ok .i2c hn, State.switchTo]

/-- The outcome of the switch after a failed one is the second that the state lists (R30). -/
theorem nextSwitch_after_failed {s : State} {b : Bool} (m : Mux) (hn : s.nextSwitch = false)
    (hb : s.env.switches[1]? = some b) : (s.muxSet m).nextSwitch = b := by
  have hhead : (s.muxSet m).env.switches.head? = some b := by
    rw [muxSet_failed_switches m hn, List.head?_tail, hb]
  simp [State.nextSwitch, canFail_of_failed hn, List.headD_eq_head?_getD, hhead]

/-- The undefined values listed after a failed switch and the restoration attempt: each that fails takes one (R30). -/
theorem restoreAttempt_values {s : State} (m : Mux) (hn : s.nextSwitch = false) :
    ((s.muxSet m).muxSet .i2c).env.values = s.env.values.drop (if (s.muxSet m).nextSwitch then 1 else 2) := by
  cases hok : (s.muxSet m).nextSwitch
  · simp [muxSet_failed_values .i2c hok, muxSet_failed_values m hn, ← List.drop_one]
  · simp [muxSet_i2c_values hok, muxSet_failed_values m hn]

/-- The pin state after the restoration attempt is the next undefined value (R172, R181). -/
theorem restorePins_drawn {s : State} {v : Word} (hv : (s.muxSet .i2c).env.values.head? = some v) :
    pinsDrawnFrom v (restorePins s) :=
  State.nextValue_of_head hv ▸ (s.muxSet .i2c).drawPins_drawn

/-- Settles O47: STORE's first switch and the restoration attempt are all that runs. -/
theorem storeStepOneFailure : Obligations.StoreStepOneFailure := by
  unfold Obligations.StoreStepOneFailure
  intro da s hn
  have hn1 : ((s.begin []).setStep 1).nextSwitch = false := hn
  have hrun : run (body (.store da)) (s.begin []) = restorePins (((s.begin []).setStep 1).muxSet .gpio) :=
    (run_storeNotSwitched da (s := s.begin []) rfl hn).trans (muxOrFault_failed_first .gpio hn1 rfl)
  have hattempt := restoreAttempt_values .gpio hn1
  have hlisted (b : Bool) := nextSwitch_after_failed (b := b) .gpio hn1
  have hfailed : Emits ((s.begin []).setStep 1) (((s.begin []).setStep 1).muxSet .gpio) [.mux .gpio false] :=
    hn1 ▸ State.muxSet_emits _ .gpio
  have hE := hfailed.trans (State.muxSet_emits _ .i2c)
  rw [exec_eq_run, hrun]
  refine ⟨_, _, rfl, rfl, by simp [restorePins], hlisted, fun v hv => restorePins_drawn ?_, by simp [restorePins],
    by simp [restorePins], ⟨rfl, rfl⟩, by simp [restorePins], by simp [restorePins], by simp [restorePins],
    by simp [restorePins], hE.of_eq rfl rfl rfl rfl⟩
  rw [hattempt, List.head?_drop]
  exact hv

/-! ## Steps 1 to 7 run -/

/-- STORE's step 8, its switch succeeding or failing, is the last that it puts on the trace (R172, R181). -/
theorem storeEnd_emits {da : BitVec 7} {s u : State} {evs : List Event} (h : StoreSevenSteps da s u evs) :
    Emits s (run (storeBody da) s) (evs ++ [.mux .i2c u.nextSwitch]) := by
  have hE : Emits u ((u.setStep 8).muxSet .i2c) [.mux .i2c u.nextSwitch] :=
    ((u.setStep 8).muxSet_emits .i2c).of_eq rfl rfl rfl rfl
  rw [h.run]
  cases hn : u.nextSwitch
  · rw [run_storeEnd_failed hn h.busy]
    exact (h.emits.trans (hn ▸ hE)).of_eq rfl rfl rfl rfl
  · rw [run_storeEnd_ok hn h.busy]
    exact (h.emits.trans (hn ▸ hE)).of_eq rfl rfl rfl rfl

theorem storeEnd_signal {da : BitVec 7} {s u : State} {evs : List Event} (h : StoreSevenSteps da s u evs)
    (ok : Bool) :
    (evs ++ [Event.mux .i2c ok]).filter notPoll = storeSignal s.params.frameBits da ++ [.mux .i2c ok] := by
  rw [List.filter_append, h.signal]
  rfl

/-- STORE's step 7 ends with a STOP, which leaves both lines OUT and HIGH (R178, R131). -/
theorem run_storeMiddle_linesHigh (da : BitVec 7) {s : State} (hb : s.busy = true) (hg : s.gpioOut) :
    (run (storeMiddle da) s).busy = true ∧ (run (storeMiddle da) s).scl = .outHigh ∧
      (run (storeMiddle da) s).sda = .outHigh := by
  have hpieces := (Signals.storeBeforeLastSend da).append (Signals.sendAck Config.hw.cmd2 8 false)
  obtain ⟨evs, hrun, _⟩ := hpieces s hb hg
  have hmiddle : run (storeMiddle da) s =
      run stopBody (run (storeBeforeLastSend da ++ sendDefault Config.hw.cmd2) s) := by
    rw [storeMiddle, ← List.append_assoc, run_append hb]
    exact State.andThen_busy _ hrun.busy
  have hstop := run_stopBody hrun.busy hrun.out
  obtain ⟨hscl, hsda, _⟩ := run_stopBody_values hrun.busy hrun.out
  obtain ⟨_, hsclOut, hsdaOut⟩ := hstop.out
  rw [hmiddle]
  exact ⟨hstop.busy, LineState.eq_of_output hsclOut hscl, LineState.eq_of_output hsdaOut hsda⟩

/-- STORE that runs to its end leaves both lines OUT and HIGH (R186). -/
theorem run_store_linesHigh (da : BitVec 7) {s : State} (hb : s.busy = true)
    (hend : (run (storeBody da) s).busy = true) :
    (run (storeBody da) s).scl = .outHigh ∧ (run (storeBody da) s).sda = .outHigh := by
  cases hn : s.nextSwitch
  · rw [run_storeNotSwitched da hb hn, muxOrFault_failed_busy (s := s.setStep 1) .gpio hn] at hend
    cases hend
  · have hbusy : ((s.setStep 1).muxSet .gpio).busy = true := by simpa using hb
    obtain ⟨hb7, hscl, hsda⟩ := run_storeMiddle_linesHigh da hbusy (muxSet_gpioOut (s := s.setStep 1) hn)
    rw [run_storeSwitched da hb hn, run_append hbusy, State.andThen_busy _ hb7] at hend ⊢
    generalize run (storeMiddle da) ((s.setStep 1).muxSet .gpio) = u at hb7 hscl hsda hend
    cases hn8 : u.nextSwitch
    · rw [run_storeEnd_failed hn8 hb7] at hend
      cases hend
    · obtain ⟨hscl8, hsda8⟩ := State.muxSet_i2c_lines (s := u.setStep 8) hn8
      rw [run_storeEnd_ok hn8 hb7]
      exact ⟨hscl8.trans hscl, hsda8.trans hsda⟩

/-- STORE from `s` has run all eight steps to `t`, with `evs` on the trace (R172, R180, R186). -/
structure StoreWhole (da : BitVec 7) (s t : State) (evs : List Event) : Prop where
  exec     : exec (.store da) s = .next t
  mux      : t.mux = .i2c
  scl      : t.scl = ⟨.output, true⟩
  sda      : t.sda = ⟨.output, true⟩
  res      : t.res = false
  timedOut : t.timedOut = false
  idle     : t.idle
  rest     : SameRest s t
  emits    : Emits s t evs
  signal   : evs.filter notPoll = storeSignal s.params.frameBits da ++ [.mux .i2c true]

/-- STORE whose last switch succeeds runs whole. -/
theorem storeSevenSteps_whole {da : BitVec 7} {s u : State} {evs : List Event}
    (h : StoreSevenSteps da (s.begin []) u evs) (hn : u.nextSwitch = true) :
    ∃ t, StoreWhole da s t (evs ++ [.mux .i2c true]) := by
  have hrun : run (storeBody da) (s.begin []) = ((u.setStep 8).muxSet .i2c).setResult false false :=
    h.run.trans (run_storeEnd_ok hn h.busy)
  have hE := hn ▸ storeEnd_emits h
  have hhigh := run_store_linesHigh da (s := s.begin []) rfl (by simpa [hrun] using h.busy)
  have hmux := State.muxSet_ok_mux (s := u.setStep 8) (m := .i2c) hn
  have hlast : SameRest u ((u.setStep 8).muxSet .i2c) := by simp [SameRest]
  rw [hrun] at hE hhigh
  obtain ⟨hscl, hsda⟩ := hhigh
  have hexec : exec (.store da) s = .next (((u.setStep 8).muxSet .i2c).setResult false false).finish :=
    (exec_eq_run (.store da) s).trans (congrArg (Host.Outcome.next ∘ State.finish) hrun)
  exact ⟨_, hexec, hmux, hscl, hsda, rfl, rfl, ⟨rfl, rfl⟩, h.rest.trans hlast, hE.ofCommand,
    storeEnd_signal h true⟩

/-- A second switch succeeds like the first, where both do (R30). -/
theorem State.bothSwitchesSucceed.nextSwitch_second {s u : State} (h : s.bothSwitchesSucceed) (hp : u.params = s.params)
    (hsw : u.env.switches = s.takeSwitch.env.switches) : u.nextSwitch = true := by
  obtain hcannot | ⟨rest, hlist⟩ := h
  · exact u.nextSwitch_of_cannotFail (by rw [hp, hcannot])
  · cases hc : s.params.muxCanFail
    · exact u.nextSwitch_of_cannotFail (by rw [hp, hc])
    · simp [State.nextSwitch, hsw, State.takeSwitch, hp, hc, hlist]

theorem State.bothSwitchesSucceed.nextSwitch_first {s : State} (h : s.bothSwitchesSucceed) : s.nextSwitch = true := by
  obtain hcannot | ⟨rest, hlist⟩ := h
  · exact s.nextSwitch_of_cannotFail hcannot
  · simp [State.nextSwitch, hlist]

/-- Settles O46: both switches succeed, so steps 1 to 7 run, and step 8. -/
theorem storeRunsTheWholeSequence : Obligations.StoreRunsTheWholeSequence := by
  unfold Obligations.StoreRunsTheWholeSequence
  intro da s hs
  have hs' : (s.begin []).bothSwitchesSucceed := hs
  obtain ⟨u, evs, h⟩ := run_storeSevenSteps da (s := s.begin []) rfl hs'.nextSwitch_first
  obtain ⟨t, hw⟩ := storeSevenSteps_whole h (hs'.nextSwitch_second h.rest.params h.switches)
  exact ⟨t, _, hw.exec, hw.mux, hw.scl, hw.sda, hw.res, hw.timedOut, hw.idle, hw.rest, hw.emits, hw.signal⟩

/-- Settles O50: what O46 leaves on the trace depends on the frame bit selection and the address alone. -/
theorem storeIgnoresAcknowledgments : Obligations.StoreIgnoresAcknowledgments := by
  unfold Obligations.StoreIgnoresAcknowledgments
  intro da s s' t t' hs hs' hsel hexec hexec'
  obtain ⟨u, evs, hu, _, _, _, _, _, _, _, hE, hsig⟩ := storeRunsTheWholeSequence da s hs
  obtain ⟨u', evs', hu', _, _, _, _, _, _, _, hE', hsig'⟩ := storeRunsTheWholeSequence da s' hs'
  cases hu.symm.trans hexec
  cases hu'.symm.trans hexec'
  exact ⟨evs, evs', hE, hE', by rw [hsig, hsig', hsel]⟩

/-- Settles O49, by the outcomes of the two switches. -/
theorem storeEndsInOneOfThreeWays : Obligations.StoreEndsInOneOfThreeWays := by
  unfold Obligations.StoreEndsInOneOfThreeWays
  intro da s
  cases hn : s.nextSwitch
  case false =>
    obtain ⟨t, ok, hexec, hfault, _, _, _, _, _, hidle, _, _, _, _, hE⟩ := storeStepOneFailure da s hn
    exact ⟨t, _, hexec, hidle, hE, .inl ⟨rfl, hfault, ok, rfl⟩⟩
  case true =>
    obtain ⟨u, evs, h⟩ := run_storeSevenSteps da (s := s.begin []) rfl hn
    cases hn8 : u.nextSwitch
    case false =>
      have hcan : s.params.muxCanFail = true := by
        rw [← canFail_of_failed hn8, h.rest.params]
        rfl
      have hfault : (run (storeBody da) (s.begin [])).fault = true := by
        rw [h.run, run_storeEnd_failed hn8 h.busy]
        rfl
      have hE := hn8 ▸ storeEnd_emits h
      exact ⟨_, _, exec_eq_run (.store da) s, ⟨rfl, rfl⟩, hE.ofCommand,
        .inr (.inl ⟨rfl, hcan, hfault, storeEnd_signal h false⟩)⟩
    case true =>
      obtain ⟨t, hw⟩ := storeSevenSteps_whole h hn8
      obtain ⟨hfault, herr, _⟩ := hw.rest
      exact ⟨t, _, hw.exec, hw.idle, hw.emits, .inr (.inr ⟨rfl, hfault, herr, hw.mux, hw.signal⟩)⟩

end Sys2Proof.Machine
end

section
/-!
SUPPORT. No piece of the signal layer looks at the hidden state that it begins with (R38): the bit index, the poll count
and the result of an ack cycle are written before they are read.
-/

namespace Sys2Proof.Machine

/-- The state with other hidden state (R22, R38). -/
def State.withSeq (s : State) (q : Seq) : State :=
  { s with seq := q }

section
variable (s : State) (q : Seq)

/-! ## Operations that keep the hidden state -/

@[simp] theorem State.withSeq_busy : (s.withSeq q).busy = s.busy := rfl
@[simp] theorem State.withSeq_seq : (s.withSeq q).seq = q := rfl
@[simp] theorem State.withSeq_params : (s.withSeq q).params = s.params := rfl
@[simp] theorem State.withSeq_withSeq (q' : Seq) : (s.withSeq q).withSeq q' = s.withSeq q' := rfl
@[simp] theorem State.withSeq_nextSwitch : (s.withSeq q).nextSwitch = s.nextSwitch := rfl
@[simp] theorem State.withSeq_line (l : Line) : (s.withSeq q).line l = s.line l := by cases l <;> rfl
@[simp] theorem State.withSeq_readLevel (l : Line) : (s.withSeq q).readLevel l = s.readLevel l := by
  simp only [State.readLevel, State.withSeq_line]; rfl

@[simp] theorem State.emit_withSeq (e : Event) : (s.withSeq q).emit e = (s.emit e).withSeq q := rfl
@[simp] theorem State.delay_withSeq (d : Nat) : (s.withSeq q).delay d = (s.delay d).withSeq q := rfl
@[simp] theorem State.drawPins_withSeq : (s.withSeq q).drawPins = s.drawPins.withSeq q := rfl
@[simp] theorem State.setResult_withSeq (r x : Bool) :
    (s.withSeq q).setResult r x = (s.setResult r x).withSeq q := rfl

@[simp] theorem State.lineWrite_withSeq (l : Line) (v : Bool) :
    (s.withSeq q).lineWrite l v = (s.lineWrite l v).withSeq q := by
  cases l <;> rfl

@[simp] theorem State.lineRead_withSeq (l : Line) : (s.withSeq q).lineRead l = (s.lineRead l).withSeq q := by
  cases hd : (s.line l).dir <;> simp [State.lineRead, hd] <;> rfl

@[simp] theorem State.turn_withSeq (l : Line) (d : Dir) : (s.withSeq q).turn l d = (s.turn l d).withSeq q := by
  cases d with
  | input => cases l <;> rfl
  | output => cases hl : s.params.latchOnOut <;> cases l <;> simp [State.turn, State.latchOnOut, hl] <;> rfl

@[simp] theorem State.lineDir_withSeq (l : Line) (d : Dir) :
    (s.withSeq q).lineDir l d = (s.lineDir l d).withSeq q := by
  simp [State.lineDir]

@[simp] theorem State.takeSwitch_withSeq : (s.withSeq q).takeSwitch = s.takeSwitch.withSeq q := by
  cases hc : s.params.muxCanFail <;> simp [State.takeSwitch, hc]; rfl

@[simp] theorem State.switchTo_withSeq (m : Mux) : (s.withSeq q).switchTo m = (s.switchTo m).withSeq q := by
  cases m with
  | i2c => rfl
  | gpio =>
    calc (s.withSeq q).switchTo .gpio
        = ((({ s with mux := .gpio } : State).withSeq q).turn .scl .output).turn .sda .output := rfl
      _ = (s.switchTo .gpio).withSeq q := by simp [State.switchTo]

@[simp] theorem State.muxSet_withSeq (m : Mux) : (s.withSeq q).muxSet m = (s.muxSet m).withSeq q := by
  cases hn : s.nextSwitch <;> simp [State.muxSet, hn]

/-! ## Operations that write it -/

@[simp] theorem State.setBit_withSeq (i : Nat) :
    (s.withSeq q).setBit i = (s.setBit i).withSeq { q with bit := i } := rfl
@[simp] theorem State.setPoll_withSeq (k : Nat) :
    (s.withSeq q).setPoll k = (s.setPoll k).withSeq { q with poll := k } := rfl

/-- One iteration's read, and what it writes of the hidden state (R134). -/
theorem pollOnce_eq (a : Bool) :
    pollOnce a s = (s.lineRead .sda).withSeq
      { s.seq with poll := s.seq.poll + 1, level := s.readLevel .sda, matched := s.readLevel .sda == a } := by
  have hread := s.lineRead_withSeq { s.seq with poll := s.seq.poll + 1 } .sda
  exact congrArg (State.setMatch · (s.readLevel .sda) (s.readLevel .sda == a)) hread

theorem pollOnce_withSeq (a : Bool) :
    pollOnce a (s.withSeq q) = (pollOnce a s).withSeq
      { q with poll := q.poll + 1, level := s.readLevel .sda, matched := s.readLevel .sda == a } := by
  simp [pollOnce_eq]

end

/-- The poll loop ends with the level of its last read and whether it matched, whatever the two were before (R134). -/
theorem pollLoop_withSeq (a : Bool) (fuel : Nat) (s : State) (q : Seq) :
    ∃ q' : Seq, pollLoop a (fuel + 1) (s.withSeq q) = (pollLoop a (fuel + 1) s).withSeq q' ∧
      q'.level = (pollLoop a (fuel + 1) s).seq.level ∧ q'.matched = (pollLoop a (fuel + 1) s).seq.matched := by
  induction fuel generalizing s q with
  | zero =>
    cases hm : (s.readLevel .sda == a) <;> simp only [pollLoop, pollOnce_withSeq, pollOnce_seq, hm] <;>
      exact ⟨_, rfl, by simp, by simp [hm]⟩
  | succ fuel ih =>
    cases hm : (s.readLevel .sda == a)
    · have hm' : ((s.withSeq q).readLevel .sda == a) = false := hm
      rw [pollLoop_missed (fuel + 1) hm, pollLoop_missed (fuel + 1) hm', pollOnce_withSeq, State.delay_withSeq]
      exact ih _ _
    · have hm' : ((s.withSeq q).readLevel .sda == a) = true := hm
      rw [pollLoop_matched (fuel + 1) hm, pollLoop_matched (fuel + 1) hm', pollOnce_withSeq]
      exact ⟨_, rfl, by simp, by simp⟩

theorem ackPolled_withSeq (a : Bool) (s : State) (q : Seq) :
    ∃ q' : Seq, ackPolled a (s.withSeq q) = (ackPolled a s).withSeq q' ∧
      q'.level = (ackPolled a s).seq.level ∧ q'.matched = (ackPolled a s).seq.matched := by
  have h := pollLoop_withSeq a 249
    (((((s.lineDir .sda .input).delay 2).lineWrite .scl true).delay 3).setPoll 0) { q with poll := 0 }
  simpa [ackPolled] using h

/-! ## Pieces -/

/-- What `code` does to all but the hidden state does not depend on the hidden state that it begins with. -/
def IgnoresHidden (code : List Stmt) : Prop :=
  ∀ (s : State) (q : Seq), s.busy = true → ∃ q', run code (s.withSeq q) = (run code s).withSeq q'

/-- The statements of the signal layer that read no hidden state. -/
def Stmt.readsNoHidden : Stmt → Bool
  | .requireGpioOut | .lineWrite _ _ | .lineDir _ _ | .delay _ => true
  | .bitIndex _ | .pollReset | .result _ _ | .storeStep _ => true
  | _ => false

namespace IgnoresHidden

variable {a b : List Stmt}

theorem append (ha : IgnoresHidden a) (hb : IgnoresHidden b) : IgnoresHidden (a ++ b) := by
  intro s q hs
  obtain ⟨q', hq⟩ := ha s q hs
  rw [run_append hs, run_append (s := s.withSeq q) hs, hq]
  cases hm : (run a s).busy
  · exact ⟨q', by simp [hm]⟩
  · obtain ⟨q'', hq'⟩ := hb _ q' hm
    exact ⟨q'', by simp [hm, hq']⟩

theorem statement {st : Stmt} (h : st.readsNoHidden = true) : IgnoresHidden [st] := by
  intro s q _
  simp only [run_cons, State.andThen_nil]
  cases st with
  | requireGpio | readResult | muxSet | restore | frameBit | poll | ackResult => cases h
  | requireGpioOut =>
    by_cases hg : s.gpioOut
    · have hg' : (s.withSeq q).gpioOut := hg
      exact ⟨q, by rw [doStmt, doStmt, State.requireGpioOut_ok hg, State.requireGpioOut_ok hg']⟩
    · have hg' : ¬ (s.withSeq q).gpioOut := hg
      exact ⟨_, by rw [doStmt, doStmt, State.requireGpioOut_fails hg, State.requireGpioOut_fails hg']; rfl⟩
  | lineWrite l v => exact ⟨q, s.lineWrite_withSeq q l v⟩
  | lineDir l d => exact ⟨q, s.lineDir_withSeq q l d⟩
  | delay | bitIndex | pollReset | result | storeStep => exact ⟨_, rfl⟩

theorem code (h : ∀ st ∈ a, st.readsNoHidden = true) : IgnoresHidden a := by
  induction a with
  | nil => exact fun s q _ => ⟨q, rfl⟩
  | cons st rest ih =>
    obtain ⟨hst, hrest⟩ := List.forall_mem_cons.mp h
    exact (statement hst).append (ih hrest)

/-- A frame bit is that of the bit index written before it (R133). -/
theorem bitPeriod (v : Byte) (n i : Nat) : IgnoresHidden (bitPeriod v n i) := by
  have hbit : IgnoresHidden [.bitIndex i, .frameBit v n] := fun s q hs =>
    ⟨{ q with bit := i }, by simp [run_cons, doStmt, hs]⟩
  exact hbit.append (code (by decide))

theorem bitLoop (v : Byte) (n : Nat) : IgnoresHidden (bitLoop v n) := by
  have hbits (is : List Nat) : IgnoresHidden (is.flatMap (Machine.bitPeriod v n)) := by
    induction is with
    | nil => exact code (by simp)
    | cons i is ih => exact (bitPeriod v n i).append ih
  exact hbits _

/-- The ack cycle's result is that of its own reads (R134). -/
theorem ackCycle (x : Bool) : IgnoresHidden (ackCycle x) := by
  intro s q hs
  obtain ⟨q', hpolled, hlevel, hmatched⟩ := ackPolled_withSeq x s q
  rw [run_ackCycle_eq x hs, run_ackCycle_eq x (s := s.withSeq q) hs, hpolled]
  exact ⟨q', by simp [State.setAckResult, hlevel, hmatched]⟩

theorem start : IgnoresHidden startBody := code (by decide)

theorem stop : IgnoresHidden stopBody := code (by decide)

theorem send (v : Byte) (n : Nat) (x w : Bool) : IgnoresHidden (sendBody v n x w) := by
  have hbits : IgnoresHidden (.requireGpioOut :: Machine.bitLoop v n) :=
    (statement (st := .requireGpioOut) rfl).append (bitLoop v n)
  cases w
  · exact hbits.append (code (by cases x <;> decide))
  · exact hbits.append (ackCycle x)

end IgnoresHidden

end Sys2Proof.Machine
end

section
/-!
SUPPORT. A piece inside STORE does what it does as a command of its own, to all but the hidden state: STORE as the store
sequence by hand (R172; program P3 of 95_test_vectors.md).
-/

namespace Sys2Proof.Machine

/-! ## Commands one after another -/

theorem execAll_cons (i : Instr) (is : List Instr) (s : State) :
    execAll (i :: is) s = execAll is (run (body i) (s.begin [])).finish := by
  rw [execAll, exec_eq_run]

theorem execAll_append {is js : List Instr} {s t : State} (h : execAll (is ++ js) s = .next t) :
    ∃ u, execAll is s = .next u ∧ execAll js u = .next t := by
  induction is generalizing s with
  | nil => exact ⟨s, rfl, h⟩
  | cons i is ih =>
    rw [List.cons_append, execAll_cons] at h
    rw [execAll_cons]
    exact ih h

/-- FAULT stays 1 from command to command (R36). -/
theorem execAll_noFault {is : List Instr} {s t : State} (h : execAll is s = .next t) (hf : t.fault = false) :
    s.fault = false := by
  induction is generalizing s with
  | nil => cases h; exact hf
  | cons i is ih =>
    rw [execAll_cons] at h
    have hi := ih h
    obtain ⟨hkept, _⟩ | ⟨c, _, hraised, _⟩ := exec_fault (exec_eq_run i s)
    · exact hkept.symm.trans hi
    · exact absurd (hraised.symm.trans hi) (by decide)

/-- Commands leave the block idle (R31, R38). -/
theorem execAll_finish {is : List Instr} {s t : State} (hne : is ≠ []) (h : execAll is s = .next t) :
    t.finish = t := by
  induction is generalizing s with
  | nil => exact absurd rfl hne
  | cons i is ih =>
    rw [execAll_cons] at h
    cases is with
    | nil => cases h; rfl
    | cons j js => exact ih (by simp) h

/-! ## Commands as a piece of another command -/

/-- The state with a command in progress, in the place `q` of it (R22, R31). -/
def State.during (s : State) (q : Seq) : State :=
  { s with busy := true, seq := q }

theorem State.finish_during {s : State} (hb : s.busy = true) (q : Seq) : s.finish.during q = s.withSeq q := by
  simp [State.during, State.finish, State.withSeq, hb]

/-- Where the commands `is` end without a fault, `code` inside another command takes the block to where they end. -/
def ByHand (code : List Stmt) (is : List Instr) : Prop :=
  ∀ (s t : State) (q : Seq), execAll is s = .next t → t.fault = false →
    ∃ q', run code (s.during q) = t.during q'

namespace ByHand

variable {a b : List Stmt} {is js : List Instr}

theorem append (ha : ByHand a is) (hb : ByHand b js) : ByHand (a ++ b) (is ++ js) := by
  intro s t q h hf
  obtain ⟨u, hu, ht⟩ := execAll_append h
  obtain ⟨q', hq⟩ := ha s u q hu (execAll_noFault ht hf)
  obtain ⟨q'', hq'⟩ := hb u t q' ht hf
  exact ⟨q'', by rw [run_append rfl, hq, State.andThen_busy _ rfl, hq']⟩

/-- The statement that enters a step of STORE writes hidden state only. -/
theorem storeStep (k : Nat) (h : ByHand a is) : ByHand (.storeStep k :: a) is :=
  fun s t q ht hf => h s t { q with step := k } ht hf

/-- A command whose body looks at no hidden state at its start. -/
theorem command {i : Instr} (h : IgnoresHidden (body i)) : ByHand (body i) [i] := by
  intro s t q ht hf
  rw [execAll_cons] at ht
  cases ht
  obtain ⟨q', hq⟩ := h (s.begin []) q rfl
  exact ⟨q', hq.trans (State.finish_during (run_goesOn hf) q').symm⟩

/-- LMUX whose switch succeeds (R104). -/
theorem lmux (m : Mux) : ByHand [.muxSet m] [.lmux m] := by
  intro s t q ht hf
  have hrun : run (body (.lmux m)) (s.begin []) = muxOrFault m (s.begin []) := State.andThen_nil _
  rw [execAll_cons, hrun] at ht
  cases ht
  cases hn : (s.begin []).nextSwitch
  · rw [muxOrFault_failed m hn (by simp [Seq.idle])] at hf
    cases hf
  · have hn' : (s.during q).nextSwitch = true := hn
    refine ⟨q, ?_⟩
    rw [muxOrFault_ok m hn, State.finish_during (by simp), run_cons, State.andThen_nil, doStmt, muxOrFault_ok m hn']
    exact (s.begin []).muxSet_withSeq q m

theorem start : ByHand startBody [.start] := command .start

theorem stop : ByHand stopBody [.stop] := command .stop

theorem send (v : Byte) (n : Nat) (x w : Bool) : ByHand (sendBody v n x w) [.send v n x w] :=
  command (IgnoresHidden.send v n x w)

theorem sends (v : Byte) (n : Nat) (x w : Bool) (k : Nat) :
    ByHand (List.replicate k (sendBody v n x w)).flatten (List.replicate k (.send v n x w)) := by
  induction k with
  | zero => exact fun s t q h _ => by cases h; exact ⟨q, rfl⟩
  | succ k ih => exact (send v n x w).append ih

theorem head : ByHand headSteps [.start, headCmd, .stop] :=
  (start.append (send _ _ _ _)).append stop

theorem pairStart : ByHand (startBody ++ sendDefault Config.hw.addr) [.start, sendb 0x10] :=
  start.append (send _ _ _ _)

theorem pair (v : Nat) : ByHand (pairSteps (BitVec.ofNat 8 v)) [.start, sendb 0x10, sendb v, .stop] :=
  (pairStart.append (send _ _ _ _)).append stop

theorem address (da : BitVec 7) : ByHand (addressSteps da)
    ([.start, .send (addressByte da) 8 true true] ++ List.replicate 8 (sendk 0x00 true) ++ [.stop]) :=
  ((start.append (send _ _ _ _)).append (sends _ _ _ _ _)).append stop

theorem wait : ByHand [.storeStep 5, .delay (1000 * Config.hw.storeDelayMs)] [.waitm 10] :=
  storeStep 5 (command (i := .waitm 10) (.code (by decide)))

/-- STORE's steps 2 to 7. -/
theorem storeMiddle (da : BitVec 7) : ByHand (storeMiddle da)
    ([.start, headCmd, .stop] ++ [.start, sendb 0x10, sendb 0x03, .stop]
      ++ ([.start, .send (addressByte da) 8 true true] ++ List.replicate 8 (sendk 0x00 true) ++ [.stop])
      ++ [.waitm 10] ++ [.start, headCmd, .stop] ++ [.start, sendb 0x10] ++ ([sendb 0x00] ++ [.stop])) :=
  ((((((head.storeStep 2).append ((pair 0x03).storeStep 3)).append ((address da).storeStep 4)).append wait).append
    (head.storeStep 6)).append (pairStart.storeStep 7)).append ((send _ _ _ _).append stop)

/-- STORE up to the clearing of its result (R172, R180). -/
theorem store (da : BitVec 7) :
    ByHand ([.storeStep 1, .muxSet .gpio] ++ (Machine.storeMiddle da ++ [.storeStep 8, .muxSet .i2c]))
      (storeByHand da) :=
  ((lmux .gpio).storeStep 1).append ((storeMiddle da).append ((lmux .i2c).storeStep 8))

end ByHand

/-- Settles O51: STORE is the pieces that the commands by hand run, one after another, and then clears the result. -/
theorem storeEqualsTheSequenceByHand : Obligations.StoreEqualsTheSequenceByHand := by
  unfold Obligations.StoreEqualsTheSequenceByHand
  intro da s t h hf
  obtain ⟨q, hq⟩ := ByHand.store da s t Seq.idle h hf
  have hbody : body (.store da) =
      ([.storeStep 1, .muxSet .gpio] ++ (storeMiddle da ++ [.storeStep 8, .muxSet .i2c])) ++ [.result false false] := by
    rw [body, storeBody_eq]
    simp [storeEnd]
  have hrun : run (body (.store da)) (s.begin []) = (t.during q).setResult false false := by
    rw [hbody, run_append rfl]
    exact (congrArg (State.andThen · _) hq).trans rfl
  have hidle : t.finish = t := execAll_finish (by simp [storeByHand]) h
  rw [exec_eq_run, hrun]
  conv_rhs => rw [← hidle]
  rfl

end Sys2Proof.Machine
end

section
/-!
SUPPORT. Faults (60_exceptions.md): what a step can do once FAULT = 1 (R205, R209 to R211), and the commands whose mode
check fails (R100, R203).
-/

namespace Sys2Proof.Machine

/-! ## While FAULT = 1 -/

theorem hostWriteCmd_faulted (w : Word) {s : State} (hf : s.fault = true) : hostWriteCmd w s = .next s := by
  simp [hostWriteCmd, hf]

theorem hostPostCmd_faulted (w : Word) {s : State} (hf : s.fault = true) : hostPostCmd w s = s := by
  simp [hostPostCmd, hf]

/-- Settles O9: the write to CMD comes to pass, and the port discards its word. -/
theorem commandDiscardedAfterFault : Obligations.CommandDiscardedAfterFault := by
  unfold Obligations.CommandDiscardedAfterFault
  intro s w k rest op hop hh hf hb
  rw [step_hostEvent hh (.inl hb)]
  obtain rfl | rfl := hop
  · exact hostWriteCmd_faulted w hf
  · exact congrArg Host.Outcome.next (hostPostCmd_faulted w hf)

/-- With FAULT = 1 no command begins, runs whole or is ILLEGAL: a step goes on with a command in progress, is a reset or a
read, or at most uses up a host event (R210). -/
theorem step_faulted_cases {s t : State} (hf : s.fault = true) (h : step s = .next t) :
    (s.busy = true ∧ t = tick s.countDown) ∨
      (∃ k rest, s.host = ⟨.reset, k⟩ :: rest ∧ (s.busy = false ∨ k = 0)) ∨
      (∃ off rest, t = hostRead off { s with host := rest }) ∨ ∃ rest, t = { s with host := rest } := by
  cases step_does h with
  | ticks hb ht => exact .inl ⟨hb, ht⟩
  | nothing ht => exact .inr (.inr (.inr ⟨s.host, ht⟩))
  | resets k rest hh hk _ => exact .inr (.inl ⟨k, rest, hh, hk⟩)
  | reads off rest ht => exact .inr (.inr (.inl ⟨off, rest, ht⟩))
  | ignores rest ht => exact .inr (.inr (.inr ⟨rest, ht⟩))
  | runs _ _ _ _ _ _ hf0 _ => simp [hf] at hf0
  | begins _ _ _ _ _ _ hf0 _ => simp [hf] at hf0
  | illegal _ _ _ _ _ hf0 _ => simp [hf] at hf0

/-- A fault that is held stays, with its code, whatever a statement raises (R36, R205). -/
theorem Moves.keepsHeldFault {s t : State} (h : Moves s t) (hf : s.fault = true) :
    t.fault = true ∧ t.err = s.err := by
  cases h with
  | goesOn _ hf' he => exact ⟨hf'.trans hf, he⟩
  | raises c _ _ hf' he _ => exact ⟨hf', by simpa [hf] using he⟩

theorem tick_keepsHeldFault {s : State} (hf : s.fault = true) : (tick s).fault = true ∧ (tick s).err = s.err := by
  obtain ⟨_, h⟩ | ⟨_, _, h⟩ | ⟨st, rest, _, _, h⟩ := tick_cases s <;> rw [h]
  · exact ⟨hf, rfl⟩
  · exact ⟨hf, rfl⟩
  · exact (startStmt_moves st (s.setCode rest)).keepsHeldFault hf

/-- Settles O21: the sequencer's statements keep the first fault, and host events but reset do not touch it. -/
theorem onlyResetClearsAFault : Obligations.OnlyResetClearsAFault := by
  unfold Obligations.OnlyResetClearsAFault
  intro s t hf h
  obtain ⟨_, rfl⟩ | hreset | ⟨off, rest, rfl⟩ | ⟨rest, rfl⟩ := step_faulted_cases hf h
  · exact .inr (tick_keepsHeldFault (s := s.countDown) hf)
  · exact .inl hreset
  · obtain ⟨_, hfault, herr, _⟩ := hostRead_block off { s with host := rest }
    exact .inr ⟨hfault.trans hf, herr⟩
  · exact .inr ⟨hf, rfl⟩

/-- A read of an idle block uses up no draw (R52, R54, R57). -/
theorem hostRead_idle (off : Nat) {s : State} (hb : s.busy = false) :
    hostRead off s = { s with readData := some (s.readRegister off) } := by
  simp [hostRead, hb]

/-- Settles O22: by the invariant a faulted block is idle, so no statement runs and a read draws nothing. -/
theorem faultedBlockStandsStill : Obligations.FaultedBlockStandsStill := by
  unfold Obligations.FaultedBlockStandsStill
  intro s t hinv hf h
  obtain ⟨_, hidle, _⟩ := hinv
  have hb : s.busy = false := hidle hf
  obtain ⟨hbusy, _⟩ | hreset | ⟨off, rest, rfl⟩ | ⟨rest, rfl⟩ := step_faulted_cases hf h
  · simp [hb] at hbusy
  · exact .inl hreset
  · rw [hostRead_idle (s := { s with host := rest }) off hb]
    exact .inr rfl
  · exact .inr rfl

/-! ## MODE_ERR -/

/-- Settles O28: the line commands begin with RequireGpio, the signal commands with RequireGpioOut, and the other
commands are ready in every state. -/
theorem modeErrorChangesNothingElse : Obligations.ModeErrorChangesNothingElse := by
  unfold Obligations.ModeErrorChangesNothingElse
  intro i s hr
  cases i with
  | start => exact exec_checkOutFails rfl hr
  | stop => exact exec_checkOutFails rfl hr
  | send v n a w => exact exec_checkOutFails rfl hr
  | rack a => exact exec_checkOutFails rfl hr
  | ldir l d => exact exec_checkGpioFails rfl hr
  | lwr l v => exact exec_checkGpioFails rfl hr
  | lrd l => exact exec_checkGpioFails rfl hr
  | store da => exact absurd trivial hr
  | lmux m => exact absurd trivial hr
  | waitu c => exact absurd trivial hr
  | waitm c => exact absurd trivial hr

end Sys2Proof.Machine
end

section
/-!
SUPPORT. Reset (R240, R241), and what the host learns from one read of STATUS (R52, R250 to R252).
-/

namespace Sys2Proof.Machine

/-! ## Reset -/

/-- While MUX = I2C both pins are the peripheral's (R29). -/
theorem State.pin_peripheral {s : State} (hm : s.mux = .i2c) (l : Line) : s.pin l = .peripheral := by
  simp only [State.pin, hm]

/-- Settles O13: the reset comes to pass when it is due, since BUSY does not hold it, and puts the block at its reset
values. -/
theorem resetGivesTheResetState : Obligations.ResetGivesTheResetState := by
  unfold Obligations.ResetGivesTheResetState
  intro s k rest hh hdue
  have hpins := State.pin_peripheral (s := ({ s with host := rest } : State).resetBlock) rfl
  exact ⟨_, step_hostEvent hh (hdue.imp_right (⟨·, rfl⟩)), by simpa [LineState.outHigh] using hpins⟩

/-! ## What STATUS tells the host -/

section
variable (s : State) (res timedOut mux : Bool)

@[simp] theorem showsIdle_statusWith : showsIdle (s.statusWith res timedOut mux) = !s.busy := by
  obtain ⟨_, _, hbusy, _⟩ := s.statusWith_fields res timedOut mux
  rw [showsIdle, hbusy]

theorem resultOf_statusWith :
    resultOf (s.statusWith res timedOut mux) = if s.busy then none else some (res, timedOut) := by
  obtain ⟨hres, hto, _⟩ := s.statusWith_fields res timedOut mux
  rw [resultOf, showsIdle_statusWith, hres, hto]
  cases s.busy <;> rfl

theorem showsPinsUndefined_statusWith :
    showsPinsUndefined (s.statusWith res timedOut mux) = true ↔ s.fault = true ∧ s.err = .pinReconf := by
  obtain ⟨_, _, _, hfault, herr, _⟩ := s.statusWith_fields res timedOut mux
  rw [showsPinsUndefined, hfault, herr, Bool.and_eq_true, beq_iff_eq, ErrCode.code_eq_pinReconf]

theorem mayUsePeripheral_statusWith : mayUsePeripheral (s.statusWith res timedOut mux) = true ↔
    s.busy = false ∧ mux = false ∧ ¬ (s.fault = true ∧ s.err = .pinReconf) := by
  obtain ⟨_, _, _, _, _, hmux, _⟩ := s.statusWith_fields res timedOut mux
  rw [← showsPinsUndefined_statusWith s res timedOut mux, mayUsePeripheral, hmux]
  simp [and_assoc]

end

/-- STATUS holds the fields RES, TO and MUX as they stand, or, while BUSY = 1, as some draws (R52, R57). -/
theorem State.readRegister_status (s : State) : ∃ res timedOut mux,
    s.readRegister 1 = s.statusWith res timedOut mux ∧
    (s.busy = false → res = s.res ∧ timedOut = s.timedOut ∧ mux = Mux.statusBit s.mux) := by
  cases hb : s.busy
  · exact ⟨_, _, _, State.readRegister_status_idle hb, fun _ => ⟨rfl, rfl, rfl⟩⟩
  · obtain ⟨res, timedOut, mux, hread⟩ := State.readRegister_status_busy hb
    exact ⟨res, timedOut, mux, hread, by simp⟩

/-- Settles O56: the word read holds BUSY, FAULT and ERR as they stand, and with BUSY = 0 the other fields too. -/
theorem seeingIdleMeansTheResultStands : Obligations.SeeingIdleMeansTheResultStands := by
  unfold Obligations.SeeingIdleMeansTheResultStands
  intro s t k rest v hh hdue hstep hread
  obtain ⟨e, he, hnext⟩ := step_read hh hdue
  cases hnext.symm.trans hstep
  obtain rfl : s.readRegister 1 = v := Option.some.inj hread
  obtain ⟨res, timedOut, mux, hword, hidle⟩ := s.readRegister_status
  rw [hword]
  refine ⟨by simp, ?_, ?_, e, he, rfl⟩
  · rw [resultOf_statusWith]
    cases hb : s.busy
    · obtain ⟨rfl, rfl, _⟩ := hidle hb
      rfl
    · rfl
  · rw [mayUsePeripheral_statusWith]
    refine and_congr_right fun hb => ?_
    obtain ⟨_, _, rfl⟩ := hidle hb
    rw [Mux.statusBit_eq_false]

end Sys2Proof.Machine
end

section
/-!
SUPPORT. MUX along a sequence of commands (R104, R186, R252): which commands write it, and to what.
-/

namespace Sys2Proof.Machine

/-! ## Commands that switch nothing -/

/-- A statement that neither switches the multiplexer nor enters a step of STORE (R104, R172). -/
def Stmt.switchless : Stmt → Bool
  | .muxSet _ => false
  | .restore => false
  | .storeStep _ => false
  | _ => true

theorem sendBody_switchless (v : Byte) (n : Nat) (a w : Bool) : ∀ st ∈ sendBody v n a w, st.switchless = true := by
  have hbits : ∀ st ∈ bitLoop v n, st.switchless = true := by
    intro st hst
    obtain ⟨i, _, hi⟩ := List.mem_flatMap.mp hst
    have hperiod : ∀ st ∈ bitPeriod v n i, st.switchless = true := by simp [bitPeriod, Stmt.switchless]
    exact hperiod st hi
  refine List.forall_mem_append.mpr ⟨List.forall_mem_cons.mpr ⟨rfl, hbits⟩, ?_⟩
  cases w
  · simp [noAckEnd, Stmt.switchless]
  · simp [ackCycle, Stmt.switchless]

theorem body_switchless {i : Instr} (hm : ∀ m, i ≠ .lmux m) (hst : ∀ da, i ≠ .store da) :
    ∀ st ∈ body i, st.switchless = true := by
  cases i with
  | start => decide
  | stop => decide
  | send v n a w => exact sendBody_switchless v n a w
  | rack a => simp [body, rackBody, ackCycle, Stmt.switchless]
  | store da => exact absurd rfl (hst da)
  | ldir l d => simp [body, ldirBody, Stmt.switchless]
  | lwr l v => simp [body, lwrBody, Stmt.switchless]
  | lrd l => simp [body, lrdBody, Stmt.switchless]
  | lmux m => exact absurd rfl (hm m)
  | waitu c => simp [body, waituBody, Stmt.switchless]
  | waitm c => simp [body, waitmBody, Stmt.switchless]

theorem doStmt_switchless_mux {st : Stmt} (h : st.switchless = true) (s : State) : (doStmt st s).mux = s.mux := by
  cases st with
  | requireGpio => rcases s.requireGpio_of with hr | hr <;> simp [doStmt, hr]
  | requireGpioOut => rcases s.requireGpioOut_of with hr | hr <;> simp [doStmt, hr]
  | muxSet m => cases h
  | restore => cases h
  | storeStep k => cases h
  | _ => simp [doStmt]

theorem run_switchless_mux {code : List Stmt} (h : ∀ st ∈ code, st.switchless = true) (s : State) :
    (run code s).mux = s.mux := by
  induction code generalizing s with
  | nil => rfl
  | cons st rest ih =>
    obtain ⟨hst, hrest⟩ := List.forall_mem_cons.mp h
    have hmux := doStmt_switchless_mux hst s
    rw [run_cons]
    cases hb : (doStmt st s).busy
    · rw [State.andThen_ended _ hb, hmux]
    · rw [State.andThen_busy _ hb, ih hrest, hmux]

/-! ## LMUX that raises nothing -/

/-- A switch that fails raises a fault, whoever asked for it (R104, R172). -/
theorem nextSwitch_of_noFault {m : Mux} {s : State} (hf : (muxOrFault m s).fault = false) : s.nextSwitch = true := by
  cases hn : s.nextSwitch
  · by_cases h1 : s.seq.step = 1
    · rw [muxOrFault_failed_first m hn h1] at hf
      cases hf
    · rw [muxOrFault_failed m hn h1] at hf
      cases hf
  · rfl

theorem run_lmux_noFault {m : Mux} {s : State} (hf : (run (body (.lmux m)) s).fault = false) :
    s.nextSwitch = true ∧ run (body (.lmux m)) s = s.muxSet m := by
  have hrun : run (body (.lmux m)) s = muxOrFault m s := State.andThen_nil _
  rw [hrun] at hf ⊢
  exact ⟨nextSwitch_of_noFault hf, muxOrFault_ok m (nextSwitch_of_noFault hf)⟩

/-! ## MUX along a sequence of commands -/

/-- MUX after a command that raises nothing, `m` before it: an LMUX sets it, a STORE restores it, and no other command
touches it (R104, R186). -/
def muxAfter (m : Mux) : Instr → Mux
  | .lmux m' => m'
  | .store _ => .i2c
  | _ => m

theorem muxAfter_other (m : Mux) {i : Instr} (hm : ∀ m, i ≠ .lmux m) (hst : ∀ da, i ≠ .store da) :
    muxAfter m i = m := by
  cases i with
  | lmux m => exact absurd rfl (hm m)
  | store da => exact absurd rfl (hst da)
  | _ => rfl

theorem exec_store_mux {da : BitVec 7} {s t : State} (h : exec (.store da) s = .next t) (hf : t.fault = false) :
    t.mux = .i2c := by
  obtain ⟨u, evs, hu, _, _, hends⟩ := storeEndsInOneOfThreeWays da s
  cases hu.symm.trans h
  obtain ⟨_, hfirst, _⟩ | ⟨_, _, hlast, _⟩ | ⟨_, _, _, hmux, _⟩ := hends
  · exact absurd (hfirst.symm.trans hf) (by decide)
  · exact absurd (hlast.symm.trans hf) (by decide)
  · exact hmux

theorem exec_mux {i : Instr} {s t : State} (h : exec i s = .next t) (hf : t.fault = false) :
    t.mux = muxAfter s.mux i := by
  by_cases hst : ∃ da, i = .store da
  · obtain ⟨da, rfl⟩ := hst
    exact exec_store_mux h hf
  rw [exec_eq_run] at h
  cases h
  by_cases hm : ∃ m, i = .lmux m
  · obtain ⟨m, rfl⟩ := hm
    obtain ⟨hn, hrun⟩ := run_lmux_noFault hf
    rw [hrun]
    exact State.muxSet_ok_mux hn
  · have hm' : ∀ m, i ≠ .lmux m := fun m hi => hm ⟨m, hi⟩
    have hst' : ∀ da, i ≠ .store da := fun da hi => hst ⟨da, hi⟩
    rw [muxAfter_other s.mux hm' hst']
    exact run_switchless_mux (body_switchless hm' hst') (s.begin [])

theorem restoresPins_cons (m : Mux) (i : Instr) (is : List Instr) :
    restoresPins m (i :: is) = restoresPins (muxAfter m i) is := by
  cases i <;> rfl

theorem execAll_restores {is : List Instr} {s t : State} (hr : restoresPins s.mux is = true)
    (h : execAll is s = .next t) (hf : t.fault = false) : t.mux = .i2c := by
  induction is generalizing s with
  | nil =>
    cases h
    simpa [restoresPins] using hr
  | cons i is ih =>
    rw [execAll_cons] at h
    rw [restoresPins_cons, ← exec_mux (exec_eq_run i s) (execAll_noFault h hf)] at hr
    exact ih hr h

/-- Settles O52: MUX after each command is what the host's duty reckons with. -/
theorem restoringSequencesEndInI2c : Obligations.RestoringSequencesEndInI2c := by
  unfold Obligations.RestoringSequencesEndInI2c
  intro is s t hr h hf
  have hmux := execAll_restores hr h hf
  exact ⟨hmux, State.pin_peripheral hmux⟩

end Sys2Proof.Machine
end

section
/-!
SUPPORT. A STORE in execution (R254): the statements that enter its steps, and that the sequencer's steps stay in a
STORE, or outside one, from a command's acceptance to its end (R31, R38).
-/

namespace Sys2Proof.Machine

/-! ## Steps of STORE in the bodies -/

theorem Stmt.entersStore_iff (st : Stmt) : st.entersStore = true ↔ ∃ k, st = .storeStep k := by
  cases st <;> simp [Stmt.entersStore]

theorem Stmt.entersNoStore_of_switchless {st : Stmt} (h : st.switchless = true) : st.entersStore = false := by
  cases st with
  | storeStep k => cases h
  | _ => rfl

theorem body_entersNoStore {i : Instr} (hst : ∀ da, i ≠ .store da) : ∀ st ∈ body i, st.entersStore = false := by
  by_cases hm : ∃ m, i = .lmux m
  · obtain ⟨m, rfl⟩ := hm
    simp [body, lmuxBody, Stmt.entersStore]
  · exact fun st h => Stmt.entersNoStore_of_switchless (body_switchless (fun m hi => hm ⟨m, hi⟩) hst st h)

/-- STORE's steps are numbered from 1 (R172). -/
theorem storeBody_noStepZero (da : BitVec 7) : .storeStep 0 ∉ storeBody da := by
  have hstart : .storeStep 0 ∉ startBody := by decide
  have hstop : .storeStep 0 ∉ stopBody := by decide
  have hsend (v : Byte) (n : Nat) (a w : Bool) : .storeStep 0 ∉ sendBody v n a w :=
    fun h => absurd (sendBody_switchless v n a w _ h) (by decide)
  simp [storeBody, headSteps, pairSteps, addressSteps, sendDefault, hstart, hstop, hsend]

theorem body_noStepZero (i : Instr) : .storeStep 0 ∉ body i := by
  by_cases hst : ∃ da, i = .store da
  · obtain ⟨da, rfl⟩ := hst
    exact storeBody_noStepZero da
  · exact fun h => absurd (body_entersNoStore (fun da hi => hst ⟨da, hi⟩) _ h) (by decide)

/-! ## The sequencer's place in a STORE -/

/-- The sequencer is in a step of STORE, or has one to enter (R38, R172). -/
def Seq.inStore (q : Seq) : Bool :=
  decide (q.step ≠ 0) || q.code.any Stmt.entersStore

theorem State.storeRunning_eq (s : State) : s.storeRunning = (s.busy && s.seq.inStore) := rfl

/-- Where the first step of a statement that enters no step of STORE leaves the sequencer: at the command's end (R205);
in the same step, before what was left to run, with perhaps more polling before it (R134); or, in step 1, before the
restoration attempt (R181). -/
inductive KeepsStep (s t : State) : Prop where
  | ended (hb : t.busy = false) (hq : t.seq = Seq.idle)
  | goesOn (more : List Stmt) (hmore : ∀ st ∈ more, st.entersStore = false) (hstep : t.seq.step = s.seq.step)
      (hcode : t.seq.code = more ++ s.seq.code)
  | restores (hfirst : s.seq.step = 1) (hstep : t.seq.step = s.seq.step) (hcode : t.seq.code = [.restore])

theorem startStmt_keepsStep {st : Stmt} (hst : st.entersStore = false) (s : State) :
    KeepsStep s (startStmt st s) := by
  cases st with
  | storeStep k => cases hst
  | requireGpio =>
    obtain h | h := s.requireGpio_of <;> rw [startStmt, doStmt, h]
    · exact .goesOn [] (by simp) rfl rfl
    · exact .ended rfl rfl
  | requireGpioOut =>
    obtain h | h := s.requireGpioOut_of <;> rw [startStmt, doStmt, h]
    · exact .goesOn [] (by simp) rfl rfl
    · exact .ended rfl rfl
  | muxSet m =>
    simp only [startStmt]
    split
    · exact .goesOn [] (by simp) (by simp) (by simp)
    · split
      · exact .restores ‹_› (by simp) rfl
      · exact .ended rfl rfl
  | restore => exact .ended rfl rfl
  | poll a =>
    simp only [startStmt]
    split
    · exact .goesOn [] (by simp) (by simp) (by simp)
    · split
      · exact .goesOn [.delay Config.hw.ackPollUs] (by simp [Stmt.entersStore]) (by simp) (by simp)
      · exact .goesOn [.delay Config.hw.ackPollUs, .poll a] (by simp [Stmt.entersStore]) (by simp) (by simp)
  | _ => exact .goesOn [] (by simp) (by simp [startStmt, doStmt]) (by simp [startStmt, doStmt])

/-- Such a statement neither enters a STORE nor leaves one, but by its end. -/
theorem KeepsStep.storeRunning {s t : State} (h : KeepsStep s t) (h0 : .storeStep 0 ∉ s.seq.code) :
    .storeStep 0 ∉ t.seq.code ∧ t.storeRunning = (t.busy && s.seq.inStore) := by
  cases h with
  | ended hb hq => exact ⟨by simp [hq, Seq.idle], by simp [State.storeRunning_eq, hb]⟩
  | goesOn more hmore hstep hcode =>
    have hzero : .storeStep 0 ∉ more := fun hmem => absurd (hmore _ hmem) (by decide)
    have hany : more.any Stmt.entersStore = false := by simpa using hmore
    exact ⟨by simp [hcode, hzero, h0], by simp [State.storeRunning_eq, Seq.inStore, hstep, hcode, hany]⟩
  | restores hfirst hstep hcode =>
    exact ⟨by simp [hcode], by simp [State.storeRunning_eq, Seq.inStore, hstep, hfirst]⟩

theorem tick_storeRunning {s : State} (h0 : .storeStep 0 ∉ s.seq.code) :
    .storeStep 0 ∉ (tick s).seq.code ∧ (tick s).storeRunning = ((tick s).busy && s.storeRunning) := by
  obtain ⟨hb, h⟩ | ⟨_, _, h⟩ | ⟨st, rest, hb, hc, h⟩ := tick_cases s
  · rw [h]
    exact ⟨h0, by simp [State.storeRunning_eq, hb]⟩
  · rw [h]
    exact ⟨by simp [Seq.idle], rfl⟩
  rw [hc, List.mem_cons, not_or] at h0
  obtain ⟨hne, hrest⟩ := h0
  rw [h, s.storeRunning_eq, hb, Bool.true_and]
  cases hst : st.entersStore
  · have hin : s.seq.inStore = (s.setCode rest).seq.inStore := by
      rw [Seq.inStore, hc, List.any_cons, hst, Bool.false_or]
      rfl
    rw [hin]
    exact (startStmt_keepsStep hst (s.setCode rest)).storeRunning hrest
  · obtain ⟨k, rfl⟩ := st.entersStore_iff.mp hst
    have hk : k ≠ 0 := fun hk => hne (hk ▸ rfl)
    exact ⟨by simpa [startStmt, doStmt] using hrest,
      by simp [startStmt, doStmt, State.storeRunning_eq, Seq.inStore, hk, hc, hst]⟩

theorem ticks_idle (n : Nat) {s : State} (hb : s.busy = false) : ticks n s = s := by
  induction n with
  | zero => rfl
  | succ n ih => rw [ticks, tick, hb, if_neg Bool.false_ne_true, ih]

theorem ticks_storeRunning (n : Nat) {s : State} (h0 : .storeStep 0 ∉ s.seq.code) (hb : s.busy = true) :
    (ticks n s).storeRunning = ((ticks n s).busy && s.seq.inStore) := by
  induction n generalizing s with
  | zero => rfl
  | succ n ih =>
    obtain ⟨hzero, hrun⟩ := tick_storeRunning h0
    rw [ticks]
    cases hb' : (tick s).busy
    · rw [ticks_idle n hb', hrun, hb', Bool.false_and, Bool.false_and]
    · rw [ih hzero hb']
      simp only [State.storeRunning_eq, hb', hb, Bool.true_and] at hrun
      rw [hrun]

/-- A command that is accepted is in a STORE exactly if it is one. -/
theorem begin_inStore (i : Instr) (s : State) : (s.begin (body i)).seq.inStore = match i with
    | .store _ => true
    | _ => false := by
  by_cases hst : ∃ da, i = .store da
  · obtain ⟨da, rfl⟩ := hst
    rfl
  · have hany : (body i).any Stmt.entersStore = false := by
      simpa using body_entersNoStore fun da hi => hst ⟨da, hi⟩
    cases i with
    | store da => exact absurd ⟨da, rfl⟩ hst
    | _ => simpa [Seq.inStore, Seq.idle] using hany

/-- Settles O57: the sequencer's steps stay in a STORE, or outside one, to the command's end. -/
theorem resetDutyHoldsExactlyDuringStore : Obligations.ResetDutyHoldsExactlyDuringStore := by
  unfold Obligations.ResetDutyHoldsExactlyDuringStore
  refine ⟨fun i s n => ?_, fun s off w => ⟨rfl, rfl, rfl⟩⟩
  rw [HostOp.keepsDuty, ticks_storeRunning n (body_noStepZero i) rfl, begin_inStore]
  cases i <;> simp

end Sys2Proof.Machine
end

section
/-!
SUPPORT. Frames on the bus (R258, R138): START and STOP each alone, and command sequences put together from whole
frames, with the store sequence by hand (program P3 of 95_test_vectors.md) as one of them (R252, R253, R257).
-/

namespace Sys2Proof.Machine

/-! ## START and STOP each alone -/

theorem State.busIdle_of_gpioOut {s : State} (hg : s.gpioOut) : s.busIdle = (s.scl.lat && s.sda.lat) := by
  obtain ⟨hmux, hscl, hsda⟩ := hg
  simp [State.busIdle, State.pin_driven (l := .scl) hmux hscl, State.pin_driven (l := .sda) hmux hsda]

/-- Settles O58: with both lines driven the bus is idle when both latches are HIGH, and these are the levels from which
each command's events make their conditions. -/
theorem framesDutyMeansOneCondition : Obligations.FramesDutyMeansOneCondition := by
  unfold Obligations.FramesDutyMeansOneCondition
  intro s t hg
  refine ⟨fun h => ⟨startEvents, exec_start_emits h hg, fun hduty => ?_, fun hlow => ?_⟩,
    fun h => ⟨stopEvents, exec_stop_emits h hg, ?_⟩⟩
  · rw [framesDuty, State.busIdle_of_gpioOut hg, Bool.and_eq_true] at hduty
    rw [busConditions_start, hduty.2, if_pos rfl]
  · rw [framesDuty, State.busIdle_of_gpioOut hg, busConditions_start, hlow]
    simp
  · rw [framesDuty, State.busIdle_of_gpioOut hg, busConditions_stop]
    cases s.scl.lat && s.sda.lat <;> rfl

/-! ## Pieces of a command sequence -/

/-- From a state in `P` the commands `is` keep the duty of R258, and if the commands after them keep it from every state
in `Q`, so does the whole sequence. -/
def FramesPiece (P : State → Prop) (is : List Instr) (Q : State → Prop) : Prop :=
  ∀ s, P s → ∀ rest, (∀ t, Q t → framesFromIdle rest t = true) → framesFromIdle (is ++ rest) s = true

/-- Between frames: the bus is idle, so a START keeps the duty (R258). -/
def BetweenFrames (s : State) : Prop :=
  s.gpioOut ∧ s.busIdle = true

/-- Inside a frame: the block drives a line LOW, so a STOP keeps the duty (R258). -/
def InsideFrame (s : State) : Prop :=
  s.gpioOut ∧ s.busIdle = false

theorem InsideFrame.of_low {s : State} (hg : s.gpioOut) (hlow : s.scl.lat = false ∨ s.sda.lat = false) :
    InsideFrame s := by
  refine ⟨hg, ?_⟩
  rw [State.busIdle_of_gpioOut hg]
  obtain h | h := hlow <;> simp [h]

theorem BetweenFrames.of_high {s : State} (hg : s.gpioOut) (hscl : s.scl.lat = true) (hsda : s.sda.lat = true) :
    BetweenFrames s :=
  ⟨hg, by rw [State.busIdle_of_gpioOut hg, hscl, hsda]; rfl⟩

namespace FramesPiece

variable {P Q R : State → Prop} {is js : List Instr}

theorem append (h : FramesPiece P is Q) (h' : FramesPiece Q js R) : FramesPiece P (is ++ js) R := by
  intro s hs rest hrest
  rw [List.append_assoc]
  exact h s hs _ fun t ht => h' t ht rest hrest

theorem command {i : Instr} (hduty : ∀ s, P s → framesDuty i s = true)
    (hend : ∀ s, P s → (run (body i) (s.begin [])).fault = false → Q (run (body i) (s.begin [])).finish) :
    FramesPiece P [i] Q := by
  intro s hs rest hrest
  rw [List.singleton_append, framesFromIdle, hduty s hs, exec_eq_run, Bool.true_and]
  cases hf : (run (body i) (s.begin [])).fault
  · simpa [hf] using hrest _ (hend s hs hf)
  · simp [hf]

theorem start : FramesPiece BetweenFrames [.start] InsideFrame :=
  command (fun _ hs => hs.2) fun s hs _ => by
    obtain ⟨hscl, _⟩ := run_startBody_values (s := s.begin []) rfl hs.1
    exact .of_low (run_startBody (s := s.begin []) rfl hs.1).out (.inl hscl)

theorem stop : FramesPiece InsideFrame [.stop] BetweenFrames :=
  command (fun s hs => by rw [framesDuty, hs.2]; rfl) fun s hs _ => by
    obtain ⟨hscl, hsda, _⟩ := run_stopBody_values (s := s.begin []) rfl hs.1
    exact .of_high (run_stopBody (s := s.begin []) rfl hs.1).out hscl hsda

theorem send (v : Byte) (n : Nat) (a w : Bool) : FramesPiece InsideFrame [.send v n a w] InsideFrame := by
  refine command (fun _ _ => rfl) fun s hs _ => ?_
  cases w with
  | false =>
    obtain ⟨_, hsda, _⟩ := run_sendNoAck_values v n a (s := s.begin []) rfl hs.1
    exact .of_low (run_sendNoAck v n a (s := s.begin []) rfl hs.1).out (.inr hsda)
  | true =>
    obtain ⟨_, _, _, hack, _⟩ := run_sendAck (v := v) (n := n) (a := a) (s := s.begin []) rfl hs.1
    obtain ⟨_, hrun, _⟩ := Signals.sendAck v n a (s.begin []) rfl hs.1
    exact .of_low hrun.out (.inl (congrArg LineState.lat hack.scl))

theorem sends (v : Byte) (n : Nat) (a w : Bool) (k : Nat) :
    FramesPiece InsideFrame (List.replicate k (.send v n a w)) InsideFrame := by
  induction k with
  | zero => exact fun s hs rest hrest => hrest s hs
  | succ k ih => exact (send v n a w).append ih

theorem waitm (c : BitVec 12) : FramesPiece BetweenFrames [.waitm c] BetweenFrames :=
  command (fun _ _ => rfl) fun s hs _ => by
    have hrun : run (body (.waitm c)) (s.begin []) = (s.begin []).delay (microsOfM c) := State.andThen_nil _
    rw [hrun]
    exact hs

/-- The switch to GPIO leaves the bus idle where both latches are HIGH and kept (R28, R30). -/
theorem raw : FramesPiece (fun s => s.params.latchOnOut = .retain ∧ s.scl.lat = true ∧ s.sda.lat = true) [rawCmd]
    BetweenFrames :=
  command (fun _ _ => rfl) fun s hs hf => by
    obtain ⟨hretain, hscl, hsda⟩ := hs
    obtain ⟨hn, hrun⟩ : _ ∧ run (body rawCmd) (s.begin []) = _ := run_lmux_noFault hf
    obtain ⟨hsclKept, hsdaKept⟩ := State.muxSet_gpio_retain hn hretain
    rw [hrun]
    exact .of_high (muxSet_gpioOut hn) (hsclKept.trans hscl) (hsdaKept.trans hsda)

theorem unraw : FramesPiece P [unrawCmd] fun _ => True :=
  command (fun _ _ => rfl) fun _ _ _ => trivial

theorem head : FramesPiece BetweenFrames [.start, headCmd, .stop] BetweenFrames :=
  (start.append (send _ _ _ _)).append stop

theorem pair (v : Nat) : FramesPiece BetweenFrames [.start, sendb 0x10, sendb v, .stop] BetweenFrames :=
  ((start.append (send _ _ _ _)).append (send _ _ _ _)).append stop

theorem address (da : BitVec 7) : FramesPiece BetweenFrames
    ([.start, .send (addressByte da) 8 true true] ++ List.replicate 8 (sendk 0x00 true) ++ [.stop]) BetweenFrames :=
  ((start.append (send _ _ _ _)).append (sends _ _ _ _ _)).append stop

end FramesPiece

/-! ## The store sequence by hand -/

/-- The commands before the wait between the halves (program P3 of 95_test_vectors.md). -/
def storeByHandFirst (da : BitVec 7) : List Instr :=
  [rawCmd] ++ ([.start, headCmd, .stop] ++ ([.start, sendb 0x10, sendb 0x03, .stop] ++
    ([.start, .send (addressByte da) 8 true true] ++ List.replicate 8 (sendk 0x00 true) ++ [.stop])))

/-- The commands after it. -/
def storeByHandSecond : List Instr :=
  [.start, headCmd, .stop] ++ ([.start, sendb 0x10, sendb 0x00, .stop] ++ [unrawCmd])

theorem storeByHand_eq (da : BitVec 7) : storeByHand da = storeByHandFirst da ++ .waitm 10 :: storeByHandSecond := rfl

theorem storeByHand_frames (da : BitVec 7) {s : State} (hr : s.params.latchOnOut = .retain) (hscl : s.scl.lat = true)
    (hsda : s.sda.lat = true) : framesFromIdle (storeByHand da) s = true := by
  have hfirst := FramesPiece.raw.append (.append .head (.append (.pair 0x03) (.address da)))
  have hsecond := FramesPiece.head.append (.append (.pair 0x00) .unraw)
  have hall := (hfirst.append (.waitm 10)).append hsecond
  exact hall s ⟨hr, hscl, hsda⟩ [] fun _ _ => rfl

/-- Settles O59: the sequence is put together from frames, each of which begins and ends on the idle bus. -/
theorem storeByHandKeepsTheHostDuties : Obligations.StoreByHandKeepsTheHostDuties := by
  unfold Obligations.StoreByHandKeepsTheHostDuties
  intro da s hr hscl hsda
  exact ⟨storeByHand_frames da hr hscl hsda, rfl, rfl, storeByHandFirst da, storeByHandSecond, storeByHand_eq da,
    by simp [storeByHandFirst], rfl, by simp [storeByHandSecond], rfl⟩

end Sys2Proof.Machine
end
